-- ==== Sys2Proof/Word.lean ====
section
/-! DEFINITION. The word types of the device (spec/00_scope.md R9, R11): bytes, 4-bit colour indices, RGB triples,
the 640-pixel line, and the 32-bit transaction word (spec/30_encoding.md R140). -/

namespace Sys2Proof

/-- A byte: every register, every memory cell and every transferred datum (R11, R105). -/
abbrev Byte := BitVec 8

/-- The 32-bit transaction word (R140). -/
abbrev Word := BitVec 32

/-- A colour index IRGB (R11). -/
abbrev Nib := BitVec 4

/-- A true colour: three 8-bit channels (R11). -/
structure Rgb where
  r : Byte
  g : Byte
  b : Byte
deriving DecidableEq, Repr, Inhabited

/-- A line: exactly 640 colour indices (R8 `LINE_W`, R11). -/
abbrev Line := Vector Nib 640

end Sys2Proof
end

