-- ==== Sys2Proof/Config.lean ====
section
/-! DEFINITION. The parameter record of spec/00_scope.md R8 with its reference values, the host configuration of
spec/10_state.md R52, and the free values: what the spec gives no value for (the two durations, which depend on
the state, stand beside it in Machine/State.lean). -/

namespace Sys2Proof

/-- The seven display types (R52). -/
inductive DisplayType where
  | rgb
  | rgbNoBrown
  | trueColor
  | green
  | amber
  | white
  | composite
deriving DecidableEq, Repr

/-- The two composite variants (R52). -/
inductive CompositeVariant where
  | old
  | new
deriving DecidableEq, Repr

/-- The host configuration, set once at ATTACH (R52). -/
structure HostConfig where
  displayType : DisplayType
  compositeVariant : CompositeVariant
  monoContrast : Bool
deriving DecidableEq, Repr

/-- `P_MEM_BASE` and `P_MEM_SIZE` (R8, spec/20_memory.md R102). -/
structure Window where
  base : Nat
  size : Nat
deriving DecidableEq, Repr

/-- One entry of `P_VTAB`, in scanlines (spec/41_timing.md R260). -/
structure VertEntry where
  endLine : Nat
  adj : Byte
  vis : Nat
  vsync : Nat
deriving DecidableEq, Repr

/-- One test of a bit of the register pair `{b0, b1}`, 16 bits with `b0` high (log 12). -/
structure PairTest where
  bit : Fin 16
  value : Bool
deriving DecidableEq, Repr

/-- A Boolean function of a register pair as data: it is true when every test of some listed pattern holds. Every function
of the 16 bits can be written so (log 12). -/
abbrev PairFormula := List (List PairTest)

/-- The function that copies bit `i` of the pair. -/
def PairFormula.copyBit (i : Fin 16) : PairFormula := [[{ bit := i, value := true }]]

/-- `P_PAL_FMT(b0, b1) = (r, g, b)`, 3 bits each: every bit of a channel, bit 0 first, is a function of the pair
(spec/43_attribute_palette.md R380; log 12). -/
structure PalFmt where
  r : Vector PairFormula 3
  g : Vector PairFormula 3
  b : Vector PairFormula 3
deriving DecidableEq, Repr

/-- The reference format `r = b0[2:0], g = b1[6:4], b = b1[2:0]` (R8, R380). -/
def PalFmt.reference : PalFmt where
  r := #v[PairFormula.copyBit 8, PairFormula.copyBit 9, PairFormula.copyBit 10]
  g := #v[PairFormula.copyBit 4, PairFormula.copyBit 5, PairFormula.copyBit 6]
  b := #v[PairFormula.copyBit 0, PairFormula.copyBit 1, PairFormula.copyBit 2]

/-- A field of the state record of spec/10_state.md R30, for a pattern of `P_UNSUPPORTED` to look at (log 11). -/
inductive StateField where
  | crtcIndex
  | crtc (i : Fin 32)
  | extIndex
  | ext (i : Fin 106)
  | mode
  | colorSelect
  | paletteR (k : Fin 16)
  | paletteG (k : Fin 16)
  | paletteB (k : Fin 16)
  | vram (a : Fin 0x4000)
  | displayType
  | compositeVariant
  | monoContrast
  | shadow (j : Fin 160)
  | con
  | cursorBlinkOn
  | firstLine
  | lastLine
  | blinkCounter
  | oddEven
  | prevW
  | prevH
  | half
  | scanline
  | vCounter
  | displayLine
  | memAddr
  | memAddrBack
  | adjRem
  | vsyncRem
  | dispOn
deriving DecidableEq, Repr

/-- One test of a pattern of `P_UNSUPPORTED`: `field & mask = value` (log 11). -/
structure StateTest where
  field : StateField
  mask : Nat
  value : Nat
deriving DecidableEq, Repr

/-- The parameter record of R8. It is plain data held in the state and never written by an operation (log 9). -/
structure Params where
  /-- `P_MEM_BASE`, `P_MEM_SIZE`. -/
  window : Window
  /-- `P_CRTC_MASK`. -/
  crtcMask : Vector Byte 32
  /-- `P_VTAB`, by height code. -/
  vtab : Vector VertEntry 4
  /-- `P_RES_H_LSB`. -/
  resHLsb : Fin 7
  /-- `P_RES_W_BIT`. -/
  resWBit : Fin 8
  /-- `P_FRAME_W`, by width bit. -/
  frameW : Vector (BitVec 16) 2
  /-- `P_DEFAULT_RES`. -/
  defaultRes : Byte
  /-- `P_INTERLACED`, by height code. -/
  interlaced : Vector Bool 4
  /-- `P_VSYNC_LINES`. -/
  vsyncLines : Byte
  /-- `P_UL_BIT`. -/
  ulBit : Fin 8
  /-- `P_MONO_BIT`. -/
  monoBit : Fin 8
  /-- `P_FONT_BANK_BIT`. -/
  fontBankBit : Fin 8
  /-- `P_CUR_AND_BIT`. -/
  curAndBit : Fin 8
  /-- `P_CUR_XOR_BIT`. -/
  curXorBit : Fin 8
  /-- `P_CUR_SHOW_BIT`. -/
  curShowBit : Fin 8
  /-- `P_CUR_COL_SWAP`. -/
  curColSwap : Bool
  /-- `P_PAL_FMT`. -/
  palFmt : PalFmt
  /-- `P_DEFAULT_PAL`. -/
  defaultPal : Vector Byte 32
  /-- `P_VIDEO_ENABLE_GATES`. -/
  videoEnableGates : Bool
  /-- `P_UNSUPPORTED`: the state is unsupported when every test of some listed pattern holds (log 11). -/
  unsupported : List (List StateTest)
  /-- `P_FONT`, as far as the host gives it: glyph bytes by `chr * 16 + bank * 8 + row`. An entry that is not listed is
  the free value `Config.font` (log 10). -/
  font : List Host.Cell
  /-- `P_STD_PAL` for the display type RGB (spec/45_output.md R434). -/
  stdPalRgb : Vector Rgb 16
  /-- `P_STD_PAL` for the display type RGB_NO_BROWN (R434). -/
  stdPalNoBrown : Vector Rgb 16
deriving DecidableEq, Repr

/-- The reference lookup entry: END 256, ADJ 6, VIS 200, VSYNC 224 (R8, R260). -/
def VertEntry.reference : VertEntry := { endLine := 256, adj := 6, vis := 200, vsync := 224 }

/-- The reference window 0xB8000-0xBFFFF (R8). -/
def Window.reference : Window := { base := 0xB8000, size := 0x8000 }

/-- The standard RGB palette of R434. -/
def stdPalRgbReference : Vector Rgb 16 :=
  #v[⟨0x00, 0x00, 0x00⟩, ⟨0x00, 0x00, 0xAA⟩, ⟨0x00, 0xAA, 0x00⟩, ⟨0x00, 0xAA, 0xAA⟩,
     ⟨0xAA, 0x00, 0x00⟩, ⟨0xAA, 0x00, 0xAA⟩, ⟨0xAA, 0x55, 0x00⟩, ⟨0xAA, 0xAA, 0xAA⟩,
     ⟨0x55, 0x55, 0x55⟩, ⟨0x55, 0x55, 0xFF⟩, ⟨0x55, 0xFF, 0x55⟩, ⟨0x55, 0xFF, 0xFF⟩,
     ⟨0xFF, 0x55, 0x55⟩, ⟨0xFF, 0x55, 0xFF⟩, ⟨0xFF, 0xFF, 0x55⟩, ⟨0xFF, 0xFF, 0xFF⟩]

/-- The reference values of R8 (the spec's choices, not facts of the chip: spec/91_not_in_source.md N2; log 9). -/
def Params.reference : Params where
  window := Window.reference
  crtcMask :=
    #v[0xFF, 0xFF, 0xFF, 0xFF, 0x7F, 0x1F, 0x7F, 0x7F, 0xF3, 0x1F, 0x7F, 0x1F, 0x3F, 0xFF, 0x3F, 0xFF,
       0xFF, 0xFF, 0, 0, 0, 0, 0, 0, 0, 0, 0, 0, 0, 0, 0, 0]
  vtab := #v[VertEntry.reference, VertEntry.reference, VertEntry.reference, VertEntry.reference]
  resHLsb := 0
  resWBit := 2
  frameW := #v[640, 512]
  defaultRes := 0x00
  interlaced := #v[false, false, false, false]
  vsyncLines := 16
  ulBit := 0
  monoBit := 1
  fontBankBit := 2
  curAndBit := 0
  curXorBit := 1
  curShowBit := 2
  curColSwap := false
  palFmt := PalFmt.reference
  defaultPal :=
    #v[0x00, 0x00, 0x00, 0x05, 0x00, 0x50, 0x00, 0x55, 0x05, 0x00, 0x05, 0x05, 0x05, 0x20, 0x05, 0x55,
       0x02, 0x22, 0x02, 0x27, 0x02, 0x72, 0x02, 0x77, 0x07, 0x22, 0x07, 0x27, 0x07, 0x72, 0x07, 0x77]
  videoEnableGates := false
  unsupported := []
  font := []
  stdPalRgb := stdPalRgbReference
  stdPalNoBrown := stdPalRgbReference.set 6 ⟨0xAA, 0xAA, 0x00⟩

/-- The constraints R8 lets a model assume of one lookup entry. -/
def VertEntry.wf (e : VertEntry) : Bool :=
  decide (e.endLine % 8 = 0) && decide (e.vis % 8 = 0) && decide (e.vsync % 8 = 0) &&
  decide (e.vis ≤ e.endLine) && decide (e.vsync < e.endLine) && decide (e.endLine ≤ 256)

/-- The constraints R8 lets a model assume of the parameter record (the bit positions' ranges are their types). -/
def Params.wf (p : Params) : Bool :=
  decide (p.crtcMask[0] = 0xFF) && decide (p.crtcMask[4] = 0x7F) && p.vtab.toList.all VertEntry.wf &&
  decide (p.vsyncLines ≠ 0) && decide (p.window.size ≠ 0) && decide (p.window.size % 0x4000 = 0) &&
  decide (p.window.base % p.window.size = 0)

/-- FREE VALUE (log 13). The draw behind the status bits the spec leaves unspecified (R49, R207): the n-th draw. -/
opaque Config.statusDraw : Nat → Byte

/-- FREE VALUE (log 10). `P_FONT(chr, bank, row)`: "none (any function)" (R8). -/
opaque Config.font : Byte → Bool → BitVec 3 → Byte

/-- FREE VALUE (log 14). `P_MEM_WAIT`, in host cycles (R8, spec/45_output.md R439). -/
opaque Config.memWait : Nat

/-- FREE VALUE (log 16). `P_STD_PAL` of the monochrome display types, whose host tables `monoContrast` selects between
(spec/45_output.md R433, R434). -/
opaque Config.monoPal : DisplayType → Bool → Nib → Rgb

end Sys2Proof
end

