-- ==== Sys2Proof/Syntax.lean ====
section
/-! DEFINITION. The operations of the device: one constructor per row of spec/opcode_table.json, in the table's order.
An operand is what the decoder reads from the word (spec/30_encoding.md R142); an `alias` says which of a row's
equivalent ports the word names (R144, R146), and bits the spec calls ignored are no operand (R140, R148). -/

namespace Sys2Proof

inductive Instr where
  /-- OUT_CRTC_INDEX, ports 0x3D0 + 2 * alias. -/
  | outCrtcIndex (portAlias : BitVec 2) (v : Byte)
  /-- OUT_CRTC_DATA, ports 0x3D1 + 2 * alias. -/
  | outCrtcData (portAlias : BitVec 2) (v : Byte)
  /-- OUT_MODE, port 0x3D8. -/
  | outMode (v : Byte)
  /-- OUT_COLSEL, port 0x3D9. -/
  | outColsel (v : Byte)
  /-- OUT_NOP_3DA, port 0x3DA. -/
  | outNop3da (v : Byte)
  /-- OUT_NOP_3DB, port 0x3DB. -/
  | outNop3db (v : Byte)
  /-- OUT_NOP_3DC, port 0x3DC. -/
  | outNop3dc (v : Byte)
  /-- OUT_EXT_INDEX, port 0x3DD. -/
  | outExtIndex (v : Byte)
  /-- OUT_EXT_DATA, port 0x3DE. -/
  | outExtData (v : Byte)
  /-- OUT_RESERVED, port 0x3DF. -/
  | outReserved (v : Byte)
  /-- IOW_UNCLAIMED, any other port. -/
  | iowUnclaimed (port : BitVec 16) (v : Byte)
  /-- IN_CRTC_INDEX, port 0x3D4. -/
  | inCrtcIndex
  /-- IN_CRTC_DATA, port 0x3D5. -/
  | inCrtcData
  /-- IN_STATUS, port 0x3DA. -/
  | inStatus
  /-- IN_FF_3D0, ports 0x3D0 + alias. -/
  | inFf3d0 (portAlias : BitVec 2)
  /-- IN_FF_3D6, ports 0x3D6 + alias. -/
  | inFf3d6 (portAlias : BitVec 1)
  /-- IN_FF_3D8, ports 0x3D8 + alias. -/
  | inFf3d8 (portAlias : BitVec 1)
  /-- IN_FF_3DB, port 0x3DB. -/
  | inFf3db
  /-- IN_FF_3DC, ports 0x3DC + alias. -/
  | inFf3dc (portAlias : BitVec 2)
  /-- IOR_UNCLAIMED, any other port. -/
  | iorUnclaimed (port : BitVec 16)
  /-- MEMW, an address inside the window. -/
  | memw (addr : BitVec 20) (v : Byte)
  /-- MEMR, an address inside the window. -/
  | memr (addr : BitVec 20)
  /-- MEMW_UNCLAIMED, an address outside the window. -/
  | memwUnclaimed (addr : BitVec 20) (v : Byte)
  /-- MEMR_UNCLAIMED, an address outside the window. -/
  | memrUnclaimed (addr : BitVec 20)
  /-- TICK. -/
  | tick
  /-- ATTACH; its configuration and allocation outcome come out of band (spec/70_reset_and_hazards.md R600). -/
  | attach
  /-- DETACH. -/
  | detach
  /-- RESERVED_7, kind 7. -/
  | reserved7
  /-- RESERVED_8_15, kind 8 + low. -/
  | reserved8to15 (low : BitVec 3)
deriving DecidableEq, Repr

/-- The row's mnemonic, as spec/opcode_table.json spells it. -/
def Instr.mnemonic : Instr → String
  | .outCrtcIndex _ _ => "OUT_CRTC_INDEX"
  | .outCrtcData _ _ => "OUT_CRTC_DATA"
  | .outMode _ => "OUT_MODE"
  | .outColsel _ => "OUT_COLSEL"
  | .outNop3da _ => "OUT_NOP_3DA"
  | .outNop3db _ => "OUT_NOP_3DB"
  | .outNop3dc _ => "OUT_NOP_3DC"
  | .outExtIndex _ => "OUT_EXT_INDEX"
  | .outExtData _ => "OUT_EXT_DATA"
  | .outReserved _ => "OUT_RESERVED"
  | .iowUnclaimed _ _ => "IOW_UNCLAIMED"
  | .inCrtcIndex => "IN_CRTC_INDEX"
  | .inCrtcData => "IN_CRTC_DATA"
  | .inStatus => "IN_STATUS"
  | .inFf3d0 _ => "IN_FF_3D0"
  | .inFf3d6 _ => "IN_FF_3D6"
  | .inFf3d8 _ => "IN_FF_3D8"
  | .inFf3db => "IN_FF_3DB"
  | .inFf3dc _ => "IN_FF_3DC"
  | .iorUnclaimed _ => "IOR_UNCLAIMED"
  | .memw _ _ => "MEMW"
  | .memr _ => "MEMR"
  | .memwUnclaimed _ _ => "MEMW_UNCLAIMED"
  | .memrUnclaimed _ => "MEMR_UNCLAIMED"
  | .tick => "TICK"
  | .attach => "ATTACH"
  | .detach => "DETACH"
  | .reserved7 => "RESERVED_7"
  | .reserved8to15 _ => "RESERVED_8_15"

end Sys2Proof
end

