-- ==== Sys2Proof/WellFormed.lean ====
section
/-! DEFINITION. Which instructions an encoding can spell: a claimed memory row has its address inside the window, an
unclaimed row has its port or address outside what the device claims (spec/20_memory.md R101, R102). -/

namespace Sys2Proof

/-- The device claims exactly the ports 0x3D0-0x3DF, all 16 bits compared (R101). -/
def portClaimed (port : BitVec 16) : Bool :=
  decide (0x3D0 ≤ port.toNat) && decide (port.toNat ≤ 0x3DF)

/-- The window test of R102. -/
def Window.claims (win : Window) (addr : BitVec 20) : Bool :=
  decide (win.base ≤ addr.toNat) && decide (addr.toNat < win.base + win.size)

/-- The instruction is one the decoder can read under this window. -/
def Instr.wf (win : Window) : Instr → Bool
  | .outCrtcIndex _ _ => true
  | .outCrtcData _ _ => true
  | .outMode _ => true
  | .outColsel _ => true
  | .outNop3da _ => true
  | .outNop3db _ => true
  | .outNop3dc _ => true
  | .outExtIndex _ => true
  | .outExtData _ => true
  | .outReserved _ => true
  | .iowUnclaimed port _ => !portClaimed port
  | .inCrtcIndex => true
  | .inCrtcData => true
  | .inStatus => true
  | .inFf3d0 _ => true
  | .inFf3d6 _ => true
  | .inFf3d8 _ => true
  | .inFf3db => true
  | .inFf3dc _ => true
  | .iorUnclaimed port => !portClaimed port
  | .memw addr _ => win.claims addr
  | .memr addr => win.claims addr
  | .memwUnclaimed addr _ => !win.claims addr
  | .memrUnclaimed addr => !win.claims addr
  | .tick => true
  | .attach => true
  | .detach => true
  | .reserved7 => true
  | .reserved8to15 _ => true

end Sys2Proof
end

