-- ==== Sys2Proof/Decode.lean ====
section
/-! DEFINITION. The transaction word of spec/30_encoding.md: the decoder, total on every 32-bit word (R143), rejecting by
name what is no word, and after it the encoder, written from the same tables. The opcode table's rows stand here as
data, so that the decoder can be held against them. -/

namespace Sys2Proof

/-- `K = W[31:28]` (R140). -/
def wordKind (w : Word) : BitVec 4 := w.extractLsb' 28 4

/-- `p = W[23:8]` (R142). -/
def wordPort (w : Word) : BitVec 16 := w.extractLsb' 8 16

/-- `addr = W[27:8]` (R142). -/
def wordAddr (w : Word) : BitVec 20 := w.extractLsb' 8 20

/-- `v = W[7:0]` (R142). -/
def wordData (w : Word) : Byte := w.extractLsb' 0 8

/-- The I/O write map (R145). A CRTC write decodes by `p & 0xFFF9` (R144); the alias is what that mask drops. -/
def decodeIow (port : BitVec 16) (v : Byte) : Instr :=
  if port &&& 0xFFF9 = 0x3D0 then .outCrtcIndex (port.extractLsb' 1 2) v
  else if port &&& 0xFFF9 = 0x3D1 then .outCrtcData (port.extractLsb' 1 2) v
  else if port = 0x3D8 then .outMode v
  else if port = 0x3D9 then .outColsel v
  else if port = 0x3DA then .outNop3da v
  else if port = 0x3DB then .outNop3db v
  else if port = 0x3DC then .outNop3dc v
  else if port = 0x3DD then .outExtIndex v
  else if port = 0x3DE then .outExtData v
  else if port = 0x3DF then .outReserved v
  else .iowUnclaimed port v

/-- The I/O read map (R146). Reads are not mirrored (R144). -/
def decodeIor (port : BitVec 16) : Instr :=
  if port = 0x3D4 then .inCrtcIndex
  else if port = 0x3D5 then .inCrtcData
  else if port = 0x3DA then .inStatus
  else if port &&& 0xFFFC = 0x3D0 then .inFf3d0 (port.extractLsb' 0 2)
  else if port &&& 0xFFFE = 0x3D6 then .inFf3d6 (port.extractLsb' 0 1)
  else if port &&& 0xFFFE = 0x3D8 then .inFf3d8 (port.extractLsb' 0 1)
  else if port = 0x3DB then .inFf3db
  else if port &&& 0xFFFC = 0x3DC then .inFf3dc (port.extractLsb' 0 2)
  else .iorUnclaimed port

/-- The memory maps (R147): the window test selects the claimed row. -/
def decodeMemw (win : Window) (addr : BitVec 20) (v : Byte) : Instr :=
  if win.claims addr then .memw addr v else .memwUnclaimed addr v

/-- The memory read map (R147). -/
def decodeMemr (win : Window) (addr : BitVec 20) : Instr :=
  if win.claims addr then .memr addr else .memrUnclaimed addr

/-- Decode proceeds by kind and is total on any 32-bit word (R141, R143, R148, R149). -/
def decodeWord (win : Window) (w : Word) : Instr :=
  if wordKind w = 0 then decodeIow (wordPort w) (wordData w)
  else if wordKind w = 1 then decodeIor (wordPort w)
  else if wordKind w = 2 then decodeMemw win (wordAddr w) (wordData w)
  else if wordKind w = 3 then decodeMemr win (wordAddr w)
  else if wordKind w = 4 then .tick
  else if wordKind w = 5 then .attach
  else if wordKind w = 6 then .detach
  else if wordKind w = 7 then .reserved7
  else .reserved8to15 ((wordKind w).extractLsb' 0 3)

/-- Why a number or a byte string is no transaction word. -/
inductive DecodeError where
  /-- The number needs more than 32 bits: it is no transaction word (R140). -/
  | widerThanWord
  /-- Fewer than four bytes: there are no shorter forms (R151). -/
  | truncated
deriving DecidableEq, Repr

/-- Decode a number as one transaction word, rejecting by name what is wider (R140, R151). -/
def decodeNat (win : Window) (w : Nat) : Except DecodeError Instr :=
  if w < 2 ^ 32 then .ok (decodeWord win (BitVec.ofNat 32 w)) else .error .widerThanWord

/-- Decode the first four bytes, least significant first (log 22), and give back the rest. -/
def decodeBytes (win : Window) : List Byte → Except DecodeError (Instr × List Byte)
  | b0 :: b1 :: b2 :: b3 :: rest => .ok (decodeWord win (b3 ++ b2 ++ b1 ++ b0), rest)
  | _ => .error .truncated

/-- The instruction the decoder reads from a table word: under the reference window, for which
spec/opcode_table.json writes its memory rows (R147). Every row has 32 bits. -/
def decodeTableWord (_nbits w : Nat) : Option Instr :=
  match decodeNat Window.reference w with
  | .ok i => some i
  | .error _ => none

/-! ### The encoder -/

/-- An I/O write word, `0x0000_0000 | p << 8 | v` (R152). -/
def encodeIow (port : BitVec 16) (v : Byte) : Word := port.setWidth 32 <<< 8 ||| v.setWidth 32

/-- An I/O read word, `0x1000_0000 | p << 8` (R152). -/
def encodeIor (port : BitVec 16) : Word := 0x10000000 ||| port.setWidth 32 <<< 8

/-- A memory write word, `0x2000_0000 | a << 8 | v` (R152). -/
def encodeMemw (addr : BitVec 20) (v : Byte) : Word := 0x20000000 ||| addr.setWidth 32 <<< 8 ||| v.setWidth 32

/-- A memory read word, `0x3000_0000 | a << 8` (R152). -/
def encodeMemr (addr : BitVec 20) : Word := 0x30000000 ||| addr.setWidth 32 <<< 8

/-- The word of an instruction, its ignored bits 0 (R145-R149, R152). -/
def encode : Instr → Word
  | .outCrtcIndex al v => encodeIow (0x3D0 ||| al.setWidth 16 <<< 1) v
  | .outCrtcData al v => encodeIow (0x3D1 ||| al.setWidth 16 <<< 1) v
  | .outMode v => encodeIow 0x3D8 v
  | .outColsel v => encodeIow 0x3D9 v
  | .outNop3da v => encodeIow 0x3DA v
  | .outNop3db v => encodeIow 0x3DB v
  | .outNop3dc v => encodeIow 0x3DC v
  | .outExtIndex v => encodeIow 0x3DD v
  | .outExtData v => encodeIow 0x3DE v
  | .outReserved v => encodeIow 0x3DF v
  | .iowUnclaimed port v => encodeIow port v
  | .inCrtcIndex => encodeIor 0x3D4
  | .inCrtcData => encodeIor 0x3D5
  | .inStatus => encodeIor 0x3DA
  | .inFf3d0 al => encodeIor (0x3D0 ||| al.setWidth 16)
  | .inFf3d6 al => encodeIor (0x3D6 ||| al.setWidth 16)
  | .inFf3d8 al => encodeIor (0x3D8 ||| al.setWidth 16)
  | .inFf3db => encodeIor 0x3DB
  | .inFf3dc al => encodeIor (0x3DC ||| al.setWidth 16)
  | .iorUnclaimed port => encodeIor port
  | .memw addr v => encodeMemw addr v
  | .memr addr => encodeMemr addr
  | .memwUnclaimed addr v => encodeMemw addr v
  | .memrUnclaimed addr => encodeMemr addr
  | .tick => 0x40000000
  | .attach => 0x50000000
  | .detach => 0x60000000
  | .reserved7 => 0x70000000
  | .reserved8to15 low => 0x80000000 ||| low.setWidth 32 <<< 28

/-- The bits of a word the decoder reads for this instruction; the others are ignored (R140, R148). -/
def readBits : Instr → Word
  | .outCrtcIndex _ _ => 0xF0FFFFFF
  | .outCrtcData _ _ => 0xF0FFFFFF
  | .outMode _ => 0xF0FFFFFF
  | .outColsel _ => 0xF0FFFFFF
  | .outNop3da _ => 0xF0FFFFFF
  | .outNop3db _ => 0xF0FFFFFF
  | .outNop3dc _ => 0xF0FFFFFF
  | .outExtIndex _ => 0xF0FFFFFF
  | .outExtData _ => 0xF0FFFFFF
  | .outReserved _ => 0xF0FFFFFF
  | .iowUnclaimed _ _ => 0xF0FFFFFF
  | .inCrtcIndex => 0xF0FFFF00
  | .inCrtcData => 0xF0FFFF00
  | .inStatus => 0xF0FFFF00
  | .inFf3d0 _ => 0xF0FFFF00
  | .inFf3d6 _ => 0xF0FFFF00
  | .inFf3d8 _ => 0xF0FFFF00
  | .inFf3db => 0xF0FFFF00
  | .inFf3dc _ => 0xF0FFFF00
  | .iorUnclaimed _ => 0xF0FFFF00
  | .memw _ _ => 0xFFFFFFFF
  | .memr _ => 0xFFFFFF00
  | .memwUnclaimed _ _ => 0xFFFFFFFF
  | .memrUnclaimed _ => 0xFFFFFF00
  | .tick => 0xF0000000
  | .attach => 0xF0000000
  | .detach => 0xF0000000
  | .reserved7 => 0xF0000000
  | .reserved8to15 _ => 0xF0000000

/-! ### The opcode table as data -/

/-- One row of spec/opcode_table.json: `word & mask = pattern`; a fallback row applies only when no other row of the
same kind matches (R143). -/
structure OpcodeRow where
  mnemonic : String
  pattern : Word
  mask : Word
  fallback : Bool
deriving DecidableEq, Repr

/-- Does the word match the row's fixed bits? -/
def OpcodeRow.hits (row : OpcodeRow) (w : Word) : Bool := decide (w &&& row.mask = row.pattern)

/-- The I/O rows of spec/opcode_table.json. -/
def ioRows : List OpcodeRow :=
  [⟨"OUT_CRTC_INDEX", 0x0003D000, 0xF0FFF900, false⟩, ⟨"OUT_CRTC_DATA", 0x0003D100, 0xF0FFF900, false⟩,
   ⟨"OUT_MODE", 0x0003D800, 0xF0FFFF00, false⟩, ⟨"OUT_COLSEL", 0x0003D900, 0xF0FFFF00, false⟩,
   ⟨"OUT_NOP_3DA", 0x0003DA00, 0xF0FFFF00, false⟩, ⟨"OUT_NOP_3DB", 0x0003DB00, 0xF0FFFF00, false⟩,
   ⟨"OUT_NOP_3DC", 0x0003DC00, 0xF0FFFF00, false⟩, ⟨"OUT_EXT_INDEX", 0x0003DD00, 0xF0FFFF00, false⟩,
   ⟨"OUT_EXT_DATA", 0x0003DE00, 0xF0FFFF00, false⟩, ⟨"OUT_RESERVED", 0x0003DF00, 0xF0FFFF00, false⟩,
   ⟨"IOW_UNCLAIMED", 0x00000000, 0xF0000000, true⟩, ⟨"IN_CRTC_INDEX", 0x1003D400, 0xF0FFFF00, false⟩,
   ⟨"IN_CRTC_DATA", 0x1003D500, 0xF0FFFF00, false⟩, ⟨"IN_STATUS", 0x1003DA00, 0xF0FFFF00, false⟩,
   ⟨"IN_FF_3D0", 0x1003D000, 0xF0FFFC00, false⟩, ⟨"IN_FF_3D6", 0x1003D600, 0xF0FFFE00, false⟩,
   ⟨"IN_FF_3D8", 0x1003D800, 0xF0FFFE00, false⟩, ⟨"IN_FF_3DB", 0x1003DB00, 0xF0FFFF00, false⟩,
   ⟨"IN_FF_3DC", 0x1003DC00, 0xF0FFFC00, false⟩, ⟨"IOR_UNCLAIMED", 0x10000000, 0xF0000000, true⟩]

/-- The memory and non-bus rows of spec/opcode_table.json (the memory rows for the reference window, R147). -/
def memAndControlRows : List OpcodeRow :=
  [⟨"MEMW", 0x2B800000, 0xFF800000, false⟩, ⟨"MEMR", 0x3B800000, 0xFF800000, false⟩,
   ⟨"MEMW_UNCLAIMED", 0x20000000, 0xF0000000, true⟩, ⟨"MEMR_UNCLAIMED", 0x30000000, 0xF0000000, true⟩,
   ⟨"TICK", 0x40000000, 0xF0000000, false⟩, ⟨"ATTACH", 0x50000000, 0xF0000000, false⟩,
   ⟨"DETACH", 0x60000000, 0xF0000000, false⟩, ⟨"RESERVED_7", 0x70000000, 0xF0000000, false⟩,
   ⟨"RESERVED_8_15", 0x80000000, 0x80000000, false⟩]

/-- spec/opcode_table.json, row by row. -/
def opcodeTable : List OpcodeRow := ioRows ++ memAndControlRows

/-- The mnemonics of the rows a word selects: the matching rows that are no fallback, and the matching fallback rows
only if there is none (R143). -/
def tableMnemonics (w : Word) : List String :=
  let plain := opcodeTable.filter fun row => row.hits w && !row.fallback
  let chosen := if plain.isEmpty then opcodeTable.filter fun row => row.hits w && row.fallback else plain
  chosen.map OpcodeRow.mnemonic

end Sys2Proof
end

