-- ==== Sys2Proof/Machine/State.lean ====
section
/-! DEFINITION. The state of the machine as plain data: the device instance of spec/10_state.md R30, the operation sequence
it is given (spec/20_memory.md R108), what it has put out (spec/00_scope.md R7), and the state after reset (R74). -/

namespace Sys2Proof.Machine

/-- Why the machine would stop with a fault: never. "The device raises no exception" (spec/60_exceptions.md R500). -/
inductive Fault where
deriving DecidableEq, Repr

/-- Why a step answers with a refusal. -/
inductive Refusal where
  /-- Raised by an arm of `exec` whose instruction has no meaning yet. Safe. -/
  | notModelled (mnemonic : String)
  /-- Raised by `step` for an operation other than ATTACH once the sticky mark `refused` is set: the run has ended
  (spec/60_exceptions.md R506, R516). Safe: the spec gives such a run no meaning. -/
  | runEnded
deriving DecidableEq, Repr

/-- The two half-line phases (R60). -/
inductive Half where
  | blank
  | visible
deriving DecidableEq, Repr

/-- The programmable registers (R31-R34, R47, R48). -/
structure Regs where
  crtcIndex : BitVec 5
  crtc : Vector Byte 32
  extIndex : Fin 106
  ext : Vector Byte 106
  mode : Byte
  colorSelect : Byte
deriving DecidableEq, Repr

/-- The raster position (R60-R67), the text-cursor state (R54) and the row buffer (R53). -/
structure Raster where
  half : Half
  scanline : BitVec 5
  vCounter : BitVec 7
  displayLine : BitVec 16
  memAddr : BitVec 14
  memAddrBack : BitVec 14
  adjRem : BitVec 8
  vsyncRem : BitVec 8
  dispOn : Bool
  con : Bool
  cursorBlinkOn : Bool
  shadow : Vector Byte 160
deriving DecidableEq, Repr

/-- A line in the host's form: converted through a palette, or the data fed to the composite encoder
(spec/45_output.md R431, R435; log 17). -/
inductive HostLine where
  | colours (pixels : Vector Rgb 640)
  | composite (mode : Byte) (pixels : Line) (variant : CompositeVariant)
deriving DecidableEq, Repr

/-- Frame bookkeeping and blink (R56-R58), and the lines accumulated since the last frame delivery
(spec/45_output.md R436; log 19). -/
structure FrameState where
  firstLine : BitVec 16
  lastLine : BitVec 16
  blinkCounter : BitVec 4
  oddEven : Bool
  prevW : BitVec 16
  prevH : BitVec 16
  frameLines : List (BitVec 16 × HostLine)
deriving DecidableEq, Repr

/-- One device instance (R30). -/
structure Device where
  regs : Regs
  /-- The true-colour palette (R50). -/
  palette : Vector Rgb 16
  /-- The 16 KB video memory (R51): offset and byte, an offset that is not listed reads 0 (the reset contents). -/
  vram : List Host.Cell
  /-- The host configuration (R52). -/
  config : HostConfig
  raster : Raster
  frame : FrameState
deriving DecidableEq, Repr

/-- FREE VALUE (log 15). `P_DUR_VIS(state)`, in host virtual cycles (R8, R202). -/
opaque Config.durVisible : Device → Nat

/-- FREE VALUE (log 15). `P_DUR_BLANK(state)`, in host virtual cycles (R8, R202). -/
opaque Config.durBlank : Device → Nat

/-- The resolution descriptor delivered with a frame (spec/45_output.md R437). -/
inductive Descriptor where
  | cells (columns rows : Nat)
  | pixels (width height bitsPerPixel : Nat)
deriving DecidableEq, Repr

/-- The output events of an operation (spec/00_scope.md R7, spec/45_output.md). -/
inductive Event where
  /-- The value an IOR or MEMR returns. -/
  | read (v : Byte)
  /-- `Line(n, pixels, m)` (R430). -/
  | line (n : BitVec 16) (pixels : Line) (m : Byte)
  /-- `FrameDone(w, h, first, last, isText, changed)` (R436), with its descriptor (R437) and the block of lines it
  delivers. -/
  | frameDone (w h first last : BitVec 16) (isText changed : Bool) (descriptor : Descriptor)
      (block : List (BitVec 16 × HostLine))
  /-- `CompositeRebuild(m)` (R438). -/
  | compositeRebuild (m : Byte)
  /-- `WaitCharge(c)` (R439). -/
  | waitCharge (c : Nat)
deriving DecidableEq, Repr

/-- The reasons of a refusal (spec/60_exceptions.md R506, R507). -/
inductive RefuseReason where
  | unsupportedConfiguration
  | reservedKind
  | noInstance
deriving DecidableEq, Repr

/-- How the latest operation ended (spec/00_scope.md R7, spec/60_exceptions.md R502). -/
inductive OpOutcome where
  | done
  | attachFailed
  | refused (reason : RefuseReason)
deriving DecidableEq, Repr

/-- The out-of-band operands of ATTACH (spec/70_reset_and_hazards.md R600; log 3). -/
structure AttachInput where
  config : HostConfig
  allocOk : Bool
deriving DecidableEq, Repr

/-- One operation of the sequence: its word, and new out-of-band operands where the host supplies them (log 3). -/
structure HostOp where
  word : Word
  attach : Option AttachInput
deriving DecidableEq, Repr

/-- The machine: the instance if there is one, what it has been given, and what it has put out. -/
structure State where
  /-- The parameter record (R8); no operation writes it. -/
  params : Params
  /-- The operations still to be applied, the next one first (R108; log 1). -/
  pending : List HostOp
  /-- The out-of-band operands the next ATTACH takes (log 3). -/
  attachIn : AttachInput
  /-- The instance; `none` before a successful ATTACH and after DETACH (R507, R601). -/
  device : Option Device
  /-- The sticky refusal mark (R72). -/
  refused : Bool
  /-- How the latest operation ended (R7). -/
  outcome : OpOutcome
  /-- Every output event so far, the earliest first (R430). -/
  events : List Event
  /-- The model's own counter: how many free values have been drawn (log 13). -/
  draws : Nat
deriving DecidableEq, Repr

/-- The default configuration of the model's reset (DESIGN CHOICE, log 4): "from configuration" (R74). -/
def HostConfig.reset : HostConfig := { displayType := .rgb, compositeVariant := .old, monoContrast := false }

/-- The registers after ATTACH with the reference parameters (R74): the default palette bytes at ext[0x40..0x5F], and
ext[0x65] = 0x00. -/
def Regs.reset : Regs where
  crtcIndex := 0
  crtc := Vector.replicate 32 0
  extIndex := 0
  ext := (Vector.replicate 64 0#8 ++ Params.reference.defaultPal ++ Vector.replicate 10 0#8 : Vector Byte (64 + 32 + 10))
  mode := 0
  colorSelect := 0

/-- The raster position after ATTACH: all zero (R74, spec/70_reset_and_hazards.md R602). -/
def Raster.reset : Raster where
  half := .blank
  scanline := 0
  vCounter := 0
  displayLine := 0
  memAddr := 0
  memAddrBack := 0
  adjRem := 0
  vsyncRem := 0
  dispOn := false
  con := false
  cursorBlinkOn := false
  shadow := Vector.replicate 160 0

/-- Frame bookkeeping after ATTACH: all zero (R74). -/
def FrameState.reset : FrameState where
  firstLine := 0
  lastLine := 0
  blinkCounter := 0
  oddEven := false
  prevW := 0
  prevH := 0
  frameLines := []

/-- The palette after ATTACH with the reference parameters: the table of spec/43_attribute_palette.md R382, written out
from it. -/
def paletteReset : Vector Rgb 16 :=
  #v[⟨0, 0, 0⟩, ⟨0, 0, 182⟩, ⟨0, 182, 0⟩, ⟨0, 182, 182⟩, ⟨182, 0, 0⟩, ⟨182, 0, 182⟩, ⟨182, 72, 0⟩, ⟨182, 182, 182⟩,
     ⟨72, 72, 72⟩, ⟨72, 72, 255⟩, ⟨72, 255, 72⟩, ⟨72, 255, 255⟩, ⟨255, 72, 72⟩, ⟨255, 72, 255⟩, ⟨255, 255, 72⟩,
     ⟨255, 255, 255⟩]

/-- The instance right after ATTACH (R74). -/
def Device.reset : Device where
  regs := Regs.reset
  palette := paletteReset
  vram := []
  config := HostConfig.reset
  raster := Raster.reset
  frame := FrameState.reset

/-- The machine right after reset: an instance just attached (spec/70_reset_and_hazards.md R600; log 4), no operation
pending and nothing put out. -/
def State.reset : State where
  params := Params.reference
  pending := []
  attachIn := { config := HostConfig.reset, allocOk := true }
  device := some Device.reset
  refused := false
  outcome := .done
  events := []
  draws := 0

end Sys2Proof.Machine
end

