-- ==== Sys2Proof/Machine/Ops.lean ====
section
/-! DEFINITION. The shared operations: tables built by index, bit fields, the video memory (spec/20_memory.md), the ends of
an operation (a commit, a refusal), and taking the next operation from the sequence.

The device raises no exception and has no trap entry and no return from one (spec/60_exceptions.md R500, R505). What stands
in their place is ONE shared operation, `State.refuse`: a refusal (R506, R507) sets the sticky mark and changes nothing else
of the machine. -/

namespace Sys2Proof.Machine

/-! ### Tables and bit fields -/

/-- `f start, f (start + 1), …`, `n` values. -/
def listFrom {α : Type} (f : Nat → α) : Nat → Nat → List α
  | 0, _ => []
  | n + 1, start => f start :: listFrom f n (start + 1)

theorem listFrom_length {α : Type} (f : Nat → α) (n : Nat) : ∀ start, (listFrom f n start).length = n := by
  induction n with
  | zero => intro _; rfl
  | succ n ih => intro start; simp [listFrom, ih]

/-- The table whose entry `i` is `f i`. -/
def tabulate {α : Type} (n : Nat) (f : Nat → α) : Vector α n :=
  ⟨(listFrom f n 0).toArray, by simp [listFrom_length]⟩

/-- The line with every pixel `x` replaced by `f x` of it. -/
def mapPixels (f : Nat → Nib → Nib) (pixels : Line) : Line :=
  tabulate 640 fun x => f x (pixels[x]?.getD 0)

/-- Concatenation of two bytes, the first one high (spec/00_scope.md R9, spec/20_memory.md R104). -/
def word16 (hi lo : Byte) : BitVec 16 := hi.setWidth 16 <<< 8 ||| lo.setWidth 16

/-! ### Video memory (R51, R102) -/

/-- What an offset that is not listed reads as: the reset contents, 0 (R51). -/
def Memory.unlisted : Byte := 0

/-- The byte listed for an address, if one is. -/
def Memory.find : List Host.Cell → Nat → Option Byte
  | [], _ => none
  | c :: m, a => if c.1 = a then some c.2 else Memory.find m a

/-- The byte at an offset. -/
def Memory.read (m : List Host.Cell) (a : Nat) : Byte := (Memory.find m a).getD Memory.unlisted

/-- `m` with `v` put before it at `a`, unless `v` is what an unlisted offset reads as. -/
def Memory.put (a : Nat) (v : Byte) (m : List Host.Cell) : List Host.Cell :=
  if v = Memory.unlisted then m else (a, v) :: m

/-- The store of one byte; it keeps the list sorted and without an entry that an unlisted offset would read as. -/
def Memory.write : List Host.Cell → Nat → Byte → List Host.Cell
  | [], a, v => Memory.put a v []
  | c :: m, a, v =>
    if c.1 < a then c :: Memory.write m a v
    else if c.1 = a then Memory.put a v m
    else Memory.put a v (c :: m)

/-- The canonical form: offsets inside the store and strictly rising, no byte that an unlisted offset reads as. -/
abbrev Memory.wf (m : List Host.Cell) : Prop :=
  m.Pairwise (fun x y => x.1 < y.1) ∧ ∀ c ∈ m, c.1 < 0x4000 ∧ c.2 ≠ Memory.unlisted

/-- `vram[a]` with `a` already reduced mod 0x4000 (spec/00_scope.md R10). -/
def Device.vramAt (d : Device) (a : Nat) : Byte := Memory.read d.vram a

/-- The video-memory offset of a host address, `A & 0x3FFF` (R102). -/
def vramOffset (addr : BitVec 20) : Nat := (addr &&& 0x3FFF).toNat

/-- An extended register by a computed index below 106 (R34). -/
def Regs.extAt (c : Regs) (i : Nat) : Byte := c.ext[i]?.getD 0

/-- The CRTC register the index selects (R31). -/
def Regs.crtcSelected (c : Regs) : Byte := c.crtc[c.crtcIndex.toNat]'c.crtcIndex.isLt

/-- `P_CRTC_MASK` of the register the index selects (R32). -/
def maskSelected (p : Params) (c : Regs) : Byte := p.crtcMask[c.crtcIndex.toNat]'c.crtcIndex.isLt

/-! ### The ends of an operation -/

/-- What an operation of an instance answers (R7): the instance after it with the events it emits, or a refusal. -/
inductive OpResult where
  | done (d : Device) (out : List Event)
  | refuse (reason : RefuseReason)
deriving DecidableEq, Repr

/-- `refuse(reason)`: the mark is set and the reason is the outcome; nothing else changes (R506, R507, spec/10_state.md
R72; log 5). -/
def State.refuse (s : State) (reason : RefuseReason) : State :=
  { s with refused := true, outcome := .refused reason }

/-- The end of an operation that has its effect: the new instance, and its events after the earlier ones. -/
def State.commit (s : State) (d : Device) (out : List Event) : State :=
  { s with device := some d, outcome := .done, events := s.events ++ out }

/-- The state an operation's answer leads to. -/
def State.finish (s : State) : OpResult → State
  | .done d out => s.commit d out
  | .refuse reason => s.refuse reason

/-- An operation of the instance; with no instance it is refused (R507). -/
def State.onDevice (s : State) (f : Device → OpResult) : Host.Outcome State Fault Refusal :=
  match s.device with
  | none => .next (s.refuse .noInstance)
  | some d => .next (s.finish (f d))

/-- An operation of the instance that writes registers only. -/
def State.onRegs (s : State) (f : Regs → Regs) : Host.Outcome State Fault Refusal :=
  s.onDevice fun d => .done { d with regs := f d.regs } []

/-- An operation of the instance that changes nothing and emits `out`. -/
def State.onRead (s : State) (out : Device → List Event) : Host.Outcome State Fault Refusal :=
  s.onDevice fun d => .done d (out d)

/-- `TimingRecompute()` (spec/40_register_file.md R202): "it writes no architectural state, and in the untimed model it is
the identity" (log 15). -/
def timingRecompute (d : Device) : Device := d

/-- The interval the scheduler leaves after the TICK that led to this phase (spec/41_timing.md R291; log 15). No operation
reads it. -/
def Device.tickInterval (d : Device) : Nat :=
  match d.raster.half with
  | .visible => Config.durVisible d
  | .blank => Config.durBlank d

/-! ### The operation sequence -/

/-- Take the head operation off the sequence and latch the out-of-band operands it brings (log 1, log 3). -/
def State.accept (s : State) (op : HostOp) (rest : List HostOp) : State :=
  { s with pending := rest, attachIn := op.attach.getD s.attachIn }

/-- May the operation run? After a refusal the run has ended, until a new ATTACH (R72, R506, R516; log 5). -/
def State.mayRun (s : State) (i : Instr) : Bool := !s.refused || decide (i = .attach)

/-- Put an operation in front of the sequence (log 2). -/
def State.issue (s : State) (w : Word) : State :=
  { s with pending := { word := w, attach := none } :: s.pending }

end Sys2Proof.Machine
end

