-- ==== Sys2Proof/Machine/Operands.lean ====
section
/-! DEFINITION. What the rules read out of the registers: every register field (spec/10_state.md R32-R48), the derived
quantities (R55, R69), and the addresses a rule forms from the raster position. -/

namespace Sys2Proof.Machine

/-! ### Resolution and attribute flags -/

/-- `heightCode` (R42). -/
def heightCode (p : Params) (c : Regs) : BitVec 2 := c.ext[0x65].extractLsb' p.resHLsb 2

/-- `widthBit` (R42). -/
def widthBit (p : Params) (c : Regs) : Bool := c.ext[0x65].getLsbD p.resWBit

/-- The lookup entry the height code selects (R42, spec/41_timing.md R260). -/
def vertEntry (p : Params) (c : Regs) : VertEntry := p.vtab[(heightCode p c).toNat]'(heightCode p c).isLt

/-- `P_INTERLACED` of the height code (spec/42_renderer.md R324). -/
def isInterlaced (p : Params) (c : Regs) : Bool := p.interlaced[(heightCode p c).toNat]'(heightCode p c).isLt

/-- `P_FRAME_W` of the width bit (spec/41_timing.md R276). -/
def frameWidth (p : Params) (c : Regs) : BitVec 16 := if widthBit p c then p.frameW[1] else p.frameW[0]

/-- `ulEmu` (R43). -/
def underlineOn (p : Params) (c : Regs) : Bool := c.ext[0x66].getLsbD p.ulBit

/-- `monoMap` (R43). -/
def monoMapOn (p : Params) (c : Regs) : Bool := c.ext[0x66].getLsbD p.monoBit

/-- `fontBank` (R43). -/
def fontBank (p : Params) (c : Regs) : Bool := c.ext[0x66].getLsbD p.fontBankBit

/-! ### Mode and colour select -/

/-- The four renderer variants (spec/42_renderer.md R320). -/
inductive Variant where
  | text80
  | text40
  | graphics320
  | graphics640
deriving DecidableEq, Repr

/-- Variant decode (R320): mode bit 0, then bit 1, then bit 4. -/
def variantOf (mode : Byte) : Variant :=
  if mode.getLsbD 0 then .text80
  else if !mode.getLsbD 1 then .text40
  else if !mode.getLsbD 4 then .graphics320
  else .graphics640

/-- `variant` (R55). -/
def variant (c : Regs) : Variant := variantOf c.mode

/-- `isText` (R55). -/
def Variant.isText : Variant → Bool
  | .text80 => true
  | .text40 => true
  | .graphics320 => false
  | .graphics640 => false

/-- Row height: 8 scanlines in text, 2 in graphics (spec/41_timing.md R261). -/
def Variant.rowHeight : Variant → Nat
  | .text80 => 8
  | .text40 => 8
  | .graphics320 => 2
  | .graphics640 => 2

/-- Cells per line (spec/42_renderer.md R322). -/
def Variant.cells : Variant → Nat
  | .text80 => 80
  | .text40 => 40
  | .graphics320 => 40
  | .graphics640 => 40

/-- `rh` (R55). -/
def rowHeight (c : Regs) : Nat := (variant c).rowHeight

/-- mode bit 2 `bw` (R47). -/
def modeBw (c : Regs) : Bool := c.mode.getLsbD 2

/-- mode bit 3 `videoEnable` (R47). -/
def modeVideoEnable (c : Regs) : Bool := c.mode.getLsbD 3

/-- mode bit 5 `blinkEn` (R47). -/
def modeBlink (c : Regs) : Bool := c.mode.getLsbD 5

/-- `csColor`, colorSelect bits 3:0 (R48). -/
def csColor (c : Regs) : Nib := c.colorSelect.extractLsb' 0 4

/-- `csIntensity`, colorSelect bit 4 (R48). -/
def csIntensity (c : Regs) : Bool := c.colorSelect.getLsbD 4

/-- `csPalette`, colorSelect bit 5 (R48). -/
def csPalette (c : Regs) : Bool := c.colorSelect.getLsbD 5

/-! ### Row constants (R69) -/

/-- `VT`: the last row before VerticalAdjust. -/
def lastRow (p : Params) (c : Regs) : Nat := (vertEntry p c).endLine / rowHeight c - 1

/-- `VD`: rows displayed. -/
def displayedRows (p : Params) (c : Regs) : Nat := (vertEntry p c).vis / rowHeight c

/-- `VS`: the row at which VSync starts. -/
def vsyncRow (p : Params) (c : Regs) : Nat := (vertEntry p c).vsync / rowHeight c

/-- `ADJ`: pad lines. -/
def adjustLines (p : Params) (c : Regs) : BitVec 8 := (vertEntry p c).adj

/-! ### CRTC fields -/

/-- `startAddr = (crtc[12] << 8 | crtc[13]) & 0x3FFF` (spec/41_timing.md R275). -/
def startAddr (c : Regs) : BitVec 14 := (word16 c.crtc[12] c.crtc[13]).setWidth 14

/-- `tca = (crtc[14] << 8 | crtc[15]) & 0x3FFF` (spec/44_cursor.md R412). -/
def textCursorAddr (c : Regs) : BitVec 14 := (word16 c.crtc[14] c.crtc[15]).setWidth 14

/-- `curStart = crtc[10] & 0x1F` (R412). -/
def cursorStart (c : Regs) : BitVec 5 := c.crtc[10].setWidth 5

/-- `curEnd = crtc[11] & 0x1F` (R412). -/
def cursorEnd (c : Regs) : BitVec 5 := c.crtc[11].setWidth 5

/-- The text cursor's disable code, `crtc[10][6:5] = 01` (R412, R418). -/
def cursorDisabled (c : Regs) : Bool := decide (c.crtc[10] &&& 0x60 = 0x20)

/-! ### Hardware-cursor fields -/

/-- `ANDrow(r)` (R35). -/
def andRow (c : Regs) (r : Nat) : BitVec 16 := word16 (c.extAt (2 * r)) (c.extAt (2 * r + 1))

/-- `XORrow(r)` (R36). -/
def xorRow (c : Regs) (r : Nat) : BitVec 16 := word16 (c.extAt (0x20 + 2 * r)) (c.extAt (0x21 + 2 * r))

/-- `cursorX` (R38). -/
def cursorX (c : Regs) : BitVec 16 := word16 c.ext[0x60] c.ext[0x61]

/-- `cursorY` (R40). -/
def cursorY (c : Regs) : Byte := c.ext[0x63]

/-- `curAND` (R41). -/
def cursorAnd (p : Params) (c : Regs) : Bool := c.ext[0x64].getLsbD p.curAndBit

/-- `curXOR` (R41). -/
def cursorXor (p : Params) (c : Regs) : Bool := c.ext[0x64].getLsbD p.curXorBit

/-- `curShow` (R41). -/
def cursorShow (p : Params) (c : Regs) : Bool := c.ext[0x64].getLsbD p.curShowBit

/-- `andColor` (R45). -/
def andColor (p : Params) (c : Regs) : Nib :=
  if p.curColSwap then c.ext[0x68].extractLsb' 0 4 else c.ext[0x68].extractLsb' 4 4

/-- `xorColor` (R45). -/
def xorColor (p : Params) (c : Regs) : Nib :=
  if p.curColSwap then c.ext[0x68].extractLsb' 4 4 else c.ext[0x68].extractLsb' 0 4

/-! ### Addresses formed from the raster position -/

/-- The effective scanline `es` (spec/42_renderer.md R324). -/
def effectiveScanline (p : Params) (d : Device) : BitVec 5 :=
  if isInterlaced p d.regs then BitVec.ofNat 5 (2 * d.raster.scanline.toNat + d.frame.oddEven.toNat)
  else d.raster.scanline

/-- The byte address of text cell `i` of the line, `ca(i)` (R323). -/
def cellAddr (r : Raster) (i : Nat) : Nat := (2 * (r.memAddr.toNat + i)) % 0x4000

/-- The byte address of graphics word `w` of the line, `ga(w)` (R323, R335). -/
def graphicsAddr (p : Params) (d : Device) (w : Nat) : Nat :=
  (2 * (d.raster.memAddr.toNat + w)) % 0x2000 + 0x2000 * ((effectiveScanline p d).getLsbD 0).toNat

/-! ### Unsupported configurations -/

/-- A display type as a number, in the order of R52 (log 11). -/
def displayTypeCode : DisplayType → Nat
  | .rgb => 0
  | .rgbNoBrown => 1
  | .trueColor => 2
  | .green => 3
  | .amber => 4
  | .white => 5
  | .composite => 6

/-- A composite variant as a number, in the order of R52 (log 11). -/
def compositeVariantCode : CompositeVariant → Nat
  | .old => 0
  | .new => 1

/-- The value of a field of the state record as a number (R30; log 11). -/
def Device.select (d : Device) : StateField → Nat
  | .crtcIndex => d.regs.crtcIndex.toNat
  | .crtc i => d.regs.crtc[i].toNat
  | .extIndex => d.regs.extIndex.val
  | .ext i => d.regs.ext[i].toNat
  | .mode => d.regs.mode.toNat
  | .colorSelect => d.regs.colorSelect.toNat
  | .paletteR k => d.palette[k].r.toNat
  | .paletteG k => d.palette[k].g.toNat
  | .paletteB k => d.palette[k].b.toNat
  | .vram a => (d.vramAt a.val).toNat
  | .displayType => displayTypeCode d.config.displayType
  | .compositeVariant => compositeVariantCode d.config.compositeVariant
  | .monoContrast => d.config.monoContrast.toNat
  | .shadow j => d.raster.shadow[j].toNat
  | .con => d.raster.con.toNat
  | .cursorBlinkOn => d.raster.cursorBlinkOn.toNat
  | .firstLine => d.frame.firstLine.toNat
  | .lastLine => d.frame.lastLine.toNat
  | .blinkCounter => d.frame.blinkCounter.toNat
  | .oddEven => d.frame.oddEven.toNat
  | .prevW => d.frame.prevW.toNat
  | .prevH => d.frame.prevH.toNat
  | .half => if d.raster.half = .blank then 0 else 1
  | .scanline => d.raster.scanline.toNat
  | .vCounter => d.raster.vCounter.toNat
  | .displayLine => d.raster.displayLine.toNat
  | .memAddr => d.raster.memAddr.toNat
  | .memAddrBack => d.raster.memAddrBack.toNat
  | .adjRem => d.raster.adjRem.toNat
  | .vsyncRem => d.raster.vsyncRem.toNat
  | .dispOn => d.raster.dispOn.toNat

/-- Does the state meet a test of a pattern (log 11)? -/
def Device.meets (d : Device) (t : StateTest) : Bool := decide (d.select t.field &&& t.mask = t.value)

/-- `P_UNSUPPORTED(s)` (spec/60_exceptions.md R506; log 11). -/
def isUnsupported (p : Params) (d : Device) : Bool := p.unsupported.any fun pattern => pattern.all d.meets

end Sys2Proof.Machine
end

