-- ==== Sys2Proof/Machine/Flags.lean ====
section
/-! DEFINITION. The flags: the status register's bits (spec/10_state.md R49), the blink phase (R57,
spec/43_attribute_palette.md R371) and the vertical phase (R68). The device has no arithmetic flags. -/

namespace Sys2Proof.Machine

/-- Status bit 0, "retrace/disable" (R49, R207). -/
def statusRetrace (r : Raster) : Bool := decide (r.half = .blank) || !r.dispOn

/-- Status bit 3, "vsync active" (R49, R207). -/
def statusVsync (r : Raster) : Bool := decide (r.vsyncRem ≠ 0)

/-- A flag as bit `i` of a byte. -/
def flagBit (b : Bool) (i : Nat) : Byte := if b then 1#8 <<< i else 0

/-- The byte IN_STATUS returns: bits 0 and 3 from the state, the others from the draw (R207). -/
def statusByte (r : Raster) (draw : Byte) : Byte :=
  flagBit (statusVsync r) 3 ||| flagBit (statusRetrace r) 0 ||| (draw &&& 0xF6)

/-- `blinkTop = blinkCounter[3]` (R57). -/
def blinkTop (f : FrameState) : Bool := f.blinkCounter.getLsbD 3

/-- `blinkAct = mode[5] AND blinkTop` (R371). -/
def blinkActive (d : Device) : Bool := modeBlink d.regs && blinkTop d.frame

/-- The vertical phases (R68). -/
inductive VerticalPhase where
  | normalDisplay
  | verticalAdjust
  | vsyncPulse
deriving DecidableEq, Repr

/-- The vertical phase, derived (R68). -/
def verticalPhase (r : Raster) : VerticalPhase :=
  if r.adjRem ≠ 0 then .verticalAdjust else if r.vsyncRem ≠ 0 then .vsyncPulse else .normalDisplay

end Sys2Proof.Machine
end

