-- ==== Sys2Proof/Machine/Attribute.lean ====
section
/-! DEFINITION. The attribute and palette mapper of spec/43_attribute_palette.md: pure functions of the register state. -/

namespace Sys2Proof.Machine

/-- `CgaMap(attr, dc)` (R372): attribute bit 7 never reaches the background, and a blinking cell shows its background
unless it is the text-cursor cell (log 43). -/
def cgaMap (blinkAct : Bool) (attr : Byte) (dc : Bool) : Nib × Nib :=
  let fg : Nib := attr.extractLsb' 0 4
  let bg : Nib := (attr.extractLsb' 4 3).setWidth 4
  if blinkAct && attr.getLsbD 7 && !dc then (bg, bg) else (fg, bg)

/-- The monochrome table `MONO[attr][bs]` (R376; log 39). -/
def monoTable (attr : Byte) (bs : Bool) : Nib × Nib :=
  if attr = 0x70 ∨ attr = 0xF0 then (if bs then (0xF, 0xF) else (0x0, 0xF))
  else if attr = 0x78 ∨ attr = 0xF8 then (if bs then (0xF, 0xF) else (0x7, 0xF))
  else if attr = 0x00 ∨ attr = 0x08 ∨ attr = 0x80 ∨ attr = 0x88 then (0x0, 0x0)
  else if bs then (0x0, 0x0)
  else if attr.getLsbD 3 then (0xF, 0x0)
  else (0x7, 0x0)

/-- `MonoMap(attr)`, with the blink state `bs = blinkAct AND attr[7]` (R377, R378). -/
def monoMap (blinkAct : Bool) (attr : Byte) : Nib × Nib := monoTable attr (blinkAct && attr.getLsbD 7)

/-- `AttrMap(attr, dc)` (R370). -/
def attrMap (p : Params) (d : Device) (attr : Byte) (dc : Bool) : Nib × Nib :=
  if monoMapOn p d.regs then monoMap (blinkActive d) attr else cgaMap (blinkActive d) attr dc

/-- `scale(c)`: `c * 255 / 7` with integer truncation (R381). -/
def scaleChannel (c : BitVec 3) : Byte := BitVec.ofNat 8 (c.toNat * 255 / 7)

/-- The value of a function of a register pair (log 12). -/
def evalPair (f : PairFormula) (w : BitVec 16) : Bool :=
  f.any fun pattern => pattern.all fun t => w.getLsbD t.bit == t.value

/-- One 3-bit channel of a register pair, bit 0 first (R380; log 12). -/
def pairChannel (fs : Vector PairFormula 3) (w : BitVec 16) : BitVec 3 :=
  BitVec.ofBool (evalPair fs[2] w) ++ BitVec.ofBool (evalPair fs[1] w) ++ BitVec.ofBool (evalPair fs[0] w)

/-- `P_PAL_FMT(b0, b1) = (r, g, b)`, then the scaling: the colour of a register pair (R380, R382). -/
def pairColour (fmt : PalFmt) (b0 b1 : Byte) : Rgb :=
  let w := word16 b0 b1
  { r := scaleChannel (pairChannel fmt.r w),
    g := scaleChannel (pairChannel fmt.g w),
    b := scaleChannel (pairChannel fmt.b w) }

/-- `PalEntry(k)` (R382). -/
def palEntry (p : Params) (c : Regs) (k : Nat) : Rgb :=
  pairColour p.palFmt (c.extAt (0x40 + 2 * k)) (c.extAt (0x41 + 2 * k))

/-- The palette with entry `k` recomputed from the registers (R382). -/
def recomputeEntry (p : Params) (c : Regs) (pal : Vector Rgb 16) (k : Nat) : Vector Rgb 16 :=
  pal.setIfInBounds k (palEntry p c k)

/-- The whole palette computed from the registers (R382, spec/70_reset_and_hazards.md R600). -/
def paletteFrom (p : Params) (c : Regs) : Vector Rgb 16 := tabulate 16 (palEntry p c)

end Sys2Proof.Machine
end

