-- ==== Sys2Proof/Machine/Lifecycle.lean ====
section
/-! DEFINITION. The lifecycle operations of spec/70_reset_and_hazards.md R600, R601, and the reserved kinds
(spec/60_exceptions.md R507). -/

namespace Sys2Proof.Machine

/-- The extended registers ATTACH leaves: zero, the default palette and the default resolution code (R600). -/
def attachedExt (p : Params) : Vector Byte 106 :=
  tabulate 106 fun i =>
    if 0x40 ≤ i ∧ i < 0x60 then p.defaultPal[i - 0x40]?.getD 0 else if i = 0x65 then p.defaultRes else 0

/-- The registers ATTACH leaves (R600). -/
def attachedRegs (p : Params) : Regs where
  crtcIndex := 0
  crtc := Vector.replicate 32 0
  extIndex := 0
  ext := attachedExt p
  mode := 0
  colorSelect := 0

/-- The instance ATTACH creates: every field 0, then the defaults (R600, spec/10_state.md R74). -/
def attachedDevice (p : Params) (cfg : HostConfig) : Device where
  regs := attachedRegs p
  palette := paletteFrom p (attachedRegs p)
  vram := []
  config := cfg
  raster := Raster.reset
  frame := FrameState.reset

/-- ATTACH (R600): a fresh instance replaces an earlier one and clears the refusal mark, or, when the host cannot allocate
the video memory, no instance is left (spec/60_exceptions.md R502; log 7). -/
def execAttach (s : State) : Host.Outcome State Fault Refusal :=
  if s.attachIn.allocOk then
    .next { s with device := some (attachedDevice s.params s.attachIn.config), refused := false, outcome := .done }
  else .next { s with device := none, outcome := .attachFailed }

/-- DETACH (R601): every field of the instance is discarded and no event is emitted (log 8). -/
def execDetach (s : State) : Host.Outcome State Fault Refusal :=
  match s.device with
  | none => .next (s.refuse .noInstance)
  | some _ => .next { s with device := none, outcome := .done }

/-- RESERVED_7 (R507, spec/30_encoding.md R149): refused, "and no other change" (log 5, log 6). -/
def execReserved7 (s : State) : Host.Outcome State Fault Refusal := .next (s.refuse .reservedKind)

/-- RESERVED_8_15 (R507, spec/30_encoding.md R149): refused, "and no other change" (log 5, log 6). -/
def execReserved8to15 (_low : BitVec 3) (s : State) : Host.Outcome State Fault Refusal := .next (s.refuse .reservedKind)

end Sys2Proof.Machine
end

