-- ==== Sys2Proof/Machine/Renderer.lean ====
section
/-! DEFINITION. The scanline renderer of spec/42_renderer.md. Each variant gives every pixel of the line as a function of its
position; `renderLine` tabulates them, so that each of the 640 positions is written exactly once (R321). -/

namespace Sys2Proof.Machine

/-! ### Text -/

/-- A text cell: character and attribute (R322). -/
structure TextCell where
  chr : Byte
  attr : Byte
deriving DecidableEq, Repr

/-- The Text80 cell fetch, from the shadow buffer (R325). -/
def shadowCell (d : Device) (i : Nat) : TextCell :=
  { chr := d.raster.shadow[2 * i]?.getD 0, attr := d.raster.shadow[2 * i + 1]?.getD 0 }

/-- The Text40 cell fetch, from the video memory (R326). -/
def vramCell (d : Device) (i : Nat) : TextCell :=
  { chr := d.vramAt (cellAddr d.raster i), attr := d.vramAt ((cellAddr d.raster i + 1) % 0x4000) }

/-- `P_FONT(chr, bank, row)`: the host's byte where its table lists one, else the free value (R327; log 10). -/
def fontByte (p : Params) (chr : Byte) (bank : Bool) (row : BitVec 3) : Byte :=
  (Memory.find p.font (chr.toNat * 16 + bank.toNat * 8 + row.toNat)).getD (Config.font chr bank row)

/-- The glyph row of a cell, with underline emulation (R327, R328). -/
def glyphRow (p : Params) (d : Device) (cell : TextCell) : Byte :=
  let row : BitVec 3 := (effectiveScanline p d).setWidth 3
  if underlineOn p d.regs && decide (cell.attr.extractLsb' 0 3 = 1) && decide (row = 7) then 0xFF
  else fontByte p cell.chr (fontBank p d.regs) row

/-- `DrawCursor(i)` (spec/44_cursor.md R417). -/
def drawCursor (d : Device) (i : Nat) : Bool :=
  decide ((d.raster.memAddr.toNat + i) % 0x4000 = (textCursorAddr d.regs).toNat) && d.raster.con && d.raster.cursorBlinkOn

/-- The colour of glyph column `b` (0 is the leftmost) of text cell `i` (R329, R330). -/
def textPixel (p : Params) (d : Device) (i : Nat) (cell : TextCell) (b : Nat) : Nib :=
  let dc := drawCursor d i
  let colours := attrMap p d cell.attr dc
  let c := if (glyphRow p d cell).getLsbD (7 - b) then colours.1 else colours.2
  if dc then c ^^^ 0xF else c

/-! ### Graphics -/

/-- The 16-bit word `w` of a graphics line, first byte high (R335). -/
def graphicsWord (p : Params) (d : Device) (w : Nat) : BitVec 16 :=
  word16 (d.vramAt (graphicsAddr p d w)) (d.vramAt (graphicsAddr p d w + 1))

/-- The Graphics320 colour set, `cols[k]` (R336; log 28). -/
def graphics320Colour (c : Regs) (k : BitVec 2) : Nib :=
  let i : Nib := if csIntensity c then 8 else 0
  if k = 0 then csColor c
  else if modeBw c then (if k = 1 then i ||| 3 else if k = 2 then i ||| 4 else i ||| 7)
  else if csPalette c then (if k = 1 then i ||| 3 else if k = 2 then i ||| 5 else i ||| 7)
  else (if k = 1 then i ||| 2 else if k = 2 then i ||| 4 else i ||| 6)

/-- Logical pixel `q` (0..7) of a Graphics320 word (R337). -/
def graphics320Pixel (p : Params) (d : Device) (w q : Nat) : Nib :=
  graphics320Colour d.regs ((graphicsWord p d w).extractLsb' (14 - 2 * q) 2)

/-- Pixel `q` (0..15) of a Graphics640 word (R338). -/
def graphics640Pixel (p : Params) (d : Device) (w q : Nat) : Nib :=
  if (graphicsWord p d w).getLsbD (15 - q) then csColor d.regs else 0

/-! ### Lines -/

/-- The colour of raster pixel `x` of the line: which cell and column of the variant it shows (R322, R329, R331, R337,
R338). -/
def renderPixel (p : Params) (d : Device) (x : Nat) : Nib :=
  match variant d.regs with
  | .text80 => textPixel p d (x / 8) (shadowCell d (x / 8)) (x % 8)
  | .text40 => textPixel p d (x / 16) (vramCell d (x / 16)) (x % 16 / 2)
  | .graphics320 => graphics320Pixel p d (x / 16) (x % 16 / 2)
  | .graphics640 => graphics640Pixel p d (x / 16) (x % 16)

/-- The line `RenderLine()` returns (R321). -/
def renderLine (p : Params) (d : Device) : Line := tabulate 640 (renderPixel p d)

/-- The advance of `memAddr` by `RenderLine()` (R321, R322). -/
def advanceMemAddr (d : Device) : Device :=
  { d with raster.memAddr := d.raster.memAddr + BitVec.ofNat 14 (variant d.regs).cells }

/-- The border colour (R346; log 41). -/
def borderColour (c : Regs) : Nib :=
  if variant c = .graphics640 then 0 else csColor c

/-- `BorderFill()` (R346). -/
def borderFill (c : Regs) : Line := tabulate 640 fun _ => borderColour c

end Sys2Proof.Machine
end

