-- ==== Sys2Proof/Machine/Cursor.lean ====
section
/-! DEFINITION. The two cursors of spec/44_cursor.md: the hardware cursor composited on rendered lines, and the text cursor's
per-line and per-frame latches. -/

namespace Sys2Proof.Machine

/-! ### Hardware cursor -/

/-- Blink suppression (R402). -/
def cursorSuppressed (p : Params) (d : Device) : Bool := !cursorShow p d.regs && !blinkTop d.frame

/-- The displayed line of the rendering TICK, `y = vCounter * rh + scanline`, over the integers (R401). -/
def displayedY (d : Device) : Int :=
  (d.raster.vCounter.toNat * rowHeight d.regs + d.raster.scanline.toNat : Nat)

/-- The row offset `r = y + 16 - cursorY`, over the integers (R404). -/
def cursorRow (d : Device) : Int := displayedY d + 16 - (cursorY d.regs).toNat

/-- The half-column of the cursor that lies on raster pixel `x`: `x - 2 * (cursorX - 16)`, over the integers (R404). -/
def cursorHalfColumn (c : Regs) (x : Nat) : Int := x - 2 * ((cursorX c).toNat - 16)

/-- The AND step of a pixel, `am` the mask row and `j` the cursor column (R405). -/
def andStep (p : Params) (c : Regs) (am : BitVec 16) (j : Nat) (px : Nib) : Nib :=
  if cursorAnd p c && am.getLsbD (15 - j) then px &&& andColor p c else px

/-- The XOR step of a pixel (R406). -/
def xorStep (p : Params) (c : Regs) (xm : BitVec 16) (j : Nat) (px : Nib) : Nib :=
  if cursorXor p c && xm.getLsbD (15 - j) then px ^^^ xorColor p c else px

/-- One pixel of the composited line, on a line `r` rows into the cursor: outside the cursor's 32 half-columns the pixel
stays (R404-R407). -/
def cursorPixel (p : Params) (c : Regs) (r x : Nat) (px : Nib) : Nib :=
  let hc := cursorHalfColumn c x
  if 0 ≤ hc ∧ hc ≤ 31 then
    let j := hc.toNat / 2
    xorStep p c (xorRow c r) j (andStep p c (andRow c r) j px)
  else px

/-- `CursorOverlay(line)` (R407). -/
def cursorOverlay (p : Params) (d : Device) (ln : Line) : Line :=
  if cursorSuppressed p d then ln
  else if cursorRow d < 0 ∨ 15 < cursorRow d then ln
  else mapPixels (cursorPixel p d.regs (cursorRow d).toNat) ln

/-! ### Text cursor -/

/-- Does the scanline meet a cursor limit, also at its half in an interlaced height code (R414-R416)? -/
def meetsLimit (p : Params) (c : Regs) (r : Raster) (limit : BitVec 5) : Bool :=
  decide (r.scanline = limit) || (isInterlaced p c && decide (r.scanline = limit >>> 1))

/-- `TextCursorEndCheck()` (R414). -/
def textCursorEndCheck (p : Params) (c : Regs) (r : Raster) : Raster :=
  if meetsLimit p c r (cursorEnd c) then { r with con := false } else r

/-- `TextCursorStartCheck()` (R415). -/
def textCursorStartCheck (p : Params) (c : Regs) (r : Raster) : Raster :=
  if meetsLimit p c r (cursorStart c) then { r with con := true } else r

/-- `CursorBlinkLatch()` (R413). -/
def cursorBlinkLatch (c : Regs) (f : FrameState) (r : Raster) : Raster :=
  { r with cursorBlinkOn := !cursorDisabled c && blinkTop f }

end Sys2Proof.Machine
end

