-- ==== Sys2Proof/Machine/Output.lean ====
section
/-! DEFINITION. The output boundary of spec/45_output.md: the conversion of a finished line by display type, the resolution
descriptor, the emission of a line and the delivery of a frame. -/

namespace Sys2Proof.Machine

/-- `P_STD_PAL(displayType, idx)` (R433, R434; log 16). -/
def stdPal (p : Params) (cfg : HostConfig) (idx : Nib) : Rgb :=
  match cfg.displayType with
  | .rgb => p.stdPalRgb[idx.toNat]'idx.isLt
  | .rgbNoBrown => p.stdPalNoBrown[idx.toNat]'idx.isLt
  | .trueColor => Config.monoPal .trueColor cfg.monoContrast idx
  | .green => Config.monoPal .green cfg.monoContrast idx
  | .amber => Config.monoPal .amber cfg.monoContrast idx
  | .white => Config.monoPal .white cfg.monoContrast idx
  | .composite => Config.monoPal .composite cfg.monoContrast idx

/-- A line through a colour table. -/
def colourLine (table : Nib → Rgb) (ln : Line) : HostLine :=
  .colours (tabulate 640 fun x => table (ln[x]?.getD 0))

/-- The post-processor's path by display type (R431): the programmable palette as it stands now (R432), the composite
encoder (R435; log 17), or the standard palette (R433). -/
def hostLine (p : Params) (d : Device) (ln : Line) : HostLine :=
  match d.config.displayType with
  | .trueColor => colourLine (fun i => d.palette[i.toNat]'i.isLt) ln
  | .composite => .composite d.regs.mode ln d.config.compositeVariant
  | .rgb => colourLine (stdPal p d.config) ln
  | .rgbNoBrown => colourLine (stdPal p d.config) ln
  | .green => colourLine (stdPal p d.config) ln
  | .amber => colourLine (stdPal p d.config) ln
  | .white => colourLine (stdPal p d.config) ln

/-- The resolution descriptor of a frame (R437). -/
def descriptorOf (v : Variant) (w h : Nat) : Descriptor :=
  match v with
  | .text80 => .cells (w / 8) (h / 8)
  | .text40 => .cells (w / 16) (h / 8)
  | .graphics320 => .pixels (w / 2) h 2
  | .graphics640 => .pixels w h 1

/-- `EmitLine(line)` (spec/41_timing.md R266, R430): one Line event, the converted line joins the block of the frame (R436),
and the line number advances. -/
def emitLine (p : Params) (ln : Line) (d : Device) : OpResult :=
  .done
    { d with
      raster.displayLine := d.raster.displayLine + 1,
      frame.frameLines := d.frame.frameLines ++ [(d.raster.displayLine, hostLine p d ln)] }
    [.line d.raster.displayLine ln d.regs.mode]

/-- The height of the frame from the observed bounds (spec/41_timing.md R276; log 20). -/
def observedHeight (f : FrameState) : BitVec 16 :=
  if f.firstLine ≤ f.lastLine then f.lastLine - f.firstLine + 1 else 0

/-- `AdvanceBlink()` (spec/41_timing.md R277). -/
def advanceBlink (f : FrameState) : FrameState :=
  { f with oddEven := !f.oddEven, blinkCounter := f.blinkCounter + 1 }

/-- The FrameDone event of the frame (R436, R437). -/
def frameDoneEvent (p : Params) (c : Regs) (f : FrameState) : Event :=
  let w := frameWidth p c
  let h := observedHeight f
  .frameDone w h f.firstLine f.lastLine (variant c).isText (decide (w ≠ f.prevW) || decide (h ≠ f.prevH))
    (descriptorOf (variant c) w.toNat h.toNat) f.frameLines

/-- The bookkeeping of `FinalizeFrame()` (spec/41_timing.md R276, R277); the delivered block starts anew (R436). -/
def finalizedFrame (p : Params) (c : Regs) (f : FrameState) : FrameState :=
  advanceBlink
    { f with
      prevW := frameWidth p c,
      prevH := observedHeight f,
      firstLine := 0xFFFF,
      lastLine := 0,
      frameLines := [] }

end Sys2Proof.Machine
end

