-- ==== Sys2Proof/Machine/Raster.lean ====
section
/-! DEFINITION. The raster timing state machine of spec/41_timing.md: the vertical advance, the VSync countdown, the shadow
refresh, and the two half-phases of a TICK. A function that gives a Raster changes nothing else of the instance. -/

namespace Sys2Proof.Machine

/-! ### The vertical advance -/

/-- `FrameTop()` (R275). -/
def frameTop (c : Regs) (r : Raster) : Raster :=
  { r with dispOn := true, memAddr := startAddr c, memAddrBack := startAddr c, scanline := 0 }

/-- `NextScanline()` (R274). -/
def nextScanline (r : Raster) : Raster :=
  { r with scanline := r.scanline + 1, memAddr := r.memAddrBack }

/-- `AdjustStep()` (R272). -/
def adjustStep (c : Regs) (r : Raster) : Raster :=
  let r1 := { r with scanline := r.scanline + 1, memAddr := r.memAddrBack, adjRem := r.adjRem - 1 }
  if r1.adjRem = 0 then frameTop c r1 else r1

/-- The end of the displayed rows (R273, first test). -/
def displayEnd (p : Params) (c : Regs) (r : Raster) : Raster :=
  if r.vCounter.toNat = displayedRows p c then { r with dispOn := false } else r

/-- "Upon reaching the display-end boundary" (R273, second test). -/
def lastRowEnd (p : Params) (c : Regs) (f : FrameState) (r : Raster) : Raster :=
  let r1 := { r with vCounter := 0, adjRem := adjustLines p c }
  cursorBlinkLatch c f (if adjustLines p c = 0 then frameTop c r1 else r1)

/-- The VSync pulse starts (R273, third test). -/
def vsyncStart (p : Params) (c : Regs) (r : Raster) : Raster :=
  if r.vCounter.toNat = vsyncRow p c then { r with dispOn := false, displayLine := 0, vsyncRem := p.vsyncLines } else r

/-- `RowEnd()` (R273): the three tests in this order. -/
def rowEnd (p : Params) (c : Regs) (f : FrameState) (r : Raster) : Raster :=
  let r1 := displayEnd p c { r with memAddrBack := r.memAddr, scanline := 0, vCounter := r.vCounter + 1 }
  vsyncStart p c (if r.vCounter.toNat = lastRow p c then lastRowEnd p c f r1 else r1)

/-- The vertical advance of an advancing TICK (R270). -/
def verticalAdvance (p : Params) (c : Regs) (f : FrameState) (r : Raster) : Raster :=
  if r.adjRem ≠ 0 then adjustStep c r
  else if r.scanline.toNat = rowHeight c - 1 then rowEnd p c f r
  else nextScanline r

/-- `ShadowRefresh()` (R290). -/
def shadowRefresh (c : Regs) (vram : List Host.Cell) (r : Raster) : Raster :=
  if r.dispOn && decide (variant c = .text80) then
    { r with shadow := tabulate 160 fun j => Memory.read vram ((2 * r.memAddr.toNat + j) % 0x4000) }
  else r

/-! ### The two half-phases -/

/-- `VSyncCountdown()` with `FinalizeFrame()` (R271, R276). -/
def vsyncCountdown (p : Params) (d : Device) : Device × List Event :=
  if d.raster.vsyncRem = 0 then (d, [])
  else if d.raster.vsyncRem - 1 = 0 then
    ({ d with raster.vsyncRem := d.raster.vsyncRem - 1, frame := finalizedFrame p d.regs d.frame },
      [frameDoneEvent p d.regs d.frame])
  else ({ d with raster.vsyncRem := d.raster.vsyncRem - 1 }, [])

/-- The raster after the countdown of an advancing TICK (R270). -/
def advanceRaster (p : Params) (d : Device) : Raster :=
  shadowRefresh d.regs d.vram
    (textCursorStartCheck p d.regs
      (verticalAdvance p d.regs d.frame (textCursorEndCheck p d.regs d.raster)))

/-- `EnterBlank()` (R270). -/
def enterBlank (p : Params) (d : Device) : OpResult :=
  let counted := vsyncCountdown p { d with raster.half := .blank }
  .done { counted.1 with raster := advanceRaster p counted.1 } counted.2

/-- `UpdateBounds()` (R265). -/
def updateBounds (n : BitVec 16) (f : FrameState) : FrameState :=
  { f with firstLine := if n < f.firstLine then n else f.firstLine, lastLine := n }

/-- The line of a rendering TICK with the display enabled: rendered and composited, or the border where the video-enable
gate replaces it (R264, spec/42_renderer.md R347). -/
def displayedLine (p : Params) (d : Device) : Line :=
  if p.videoEnableGates && !modeVideoEnable d.regs then borderFill d.regs else cursorOverlay p d (renderLine p d)

/-- `EnterVisible()` (R264). The refusal of an unsupported configuration comes before everything else of the TICK
(spec/60_exceptions.md R504, R506; log 21). -/
def enterVisible (p : Params) (d : Device) : OpResult :=
  if d.raster.dispOn then
    if isUnsupported p d then .refuse .unsupportedConfiguration
    else
      let d1 := { d with raster.half := .visible, frame := updateBounds d.raster.displayLine d.frame }
      emitLine p (displayedLine p d1) (advanceMemAddr d1)
  else
    emitLine p (borderFill d.regs) { d with raster.half := .visible }

/-- `TICK` (R263): each TICK toggles the half-phase. -/
def tickDevice (p : Params) (d : Device) : OpResult :=
  match d.raster.half with
  | .blank => enterVisible p d
  | .visible => enterBlank p d

/-- TICK (R263). -/
def execTick (s : State) : Host.Outcome State Fault Refusal := s.onDevice (tickDevice s.params)

end Sys2Proof.Machine
end

