-- ==== Sys2Proof/Machine/RegisterFile.lean ====
section
/-! DEFINITION. The register-file transactions of spec/40_register_file.md R200-R212 and R215. The `portAlias` of a mirrored
port has no effect: the ports are equivalent (R144, R200). -/

namespace Sys2Proof.Machine

/-! ### I/O writes -/

/-- The OUT_CRTC_INDEX store, `crtcIndex <- v mod 32`. -/
def setCrtcIndex (v : Byte) (c : Regs) : Regs := { c with crtcIndex := v.setWidth 5 }

/-- OUT_CRTC_INDEX (R200). -/
def execOutCrtcIndex (_portAlias : BitVec 2) (v : Byte) (s : State) : Host.Outcome State Fault Refusal :=
  s.onRegs (setCrtcIndex v)

/-- The masked store of OUT_CRTC_DATA (R201). -/
def setCrtcData (p : Params) (v : Byte) (c : Regs) : Regs :=
  { c with crtc := c.crtc.set c.crtcIndex.toNat (v &&& maskSelected p c) c.crtcIndex.isLt }

/-- Does the write change a timing register (R201)? -/
def changesTiming (p : Params) (v : Byte) (c : Regs) : Bool :=
  decide (v &&& maskSelected p c ≠ c.crtcSelected) && (decide (c.crtcIndex < 14) || decide (16 < c.crtcIndex))

/-- OUT_CRTC_DATA (R201). -/
def execOutCrtcData (_portAlias : BitVec 2) (v : Byte) (s : State) : Host.Outcome State Fault Refusal :=
  s.onDevice fun d =>
    let d1 := { d with regs := setCrtcData s.params v d.regs }
    .done (if changesTiming s.params v d.regs then timingRecompute d1 else d1) []

/-- The event of a mode write that toggles bit 0 or bit 2 (R205, spec/45_output.md R438). -/
def compositeEvents (old v : Byte) : List Event :=
  if (old ^^^ v) &&& 0x05 ≠ 0 then [.compositeRebuild v] else []

/-- OUT_MODE (R205). -/
def execOutMode (v : Byte) (s : State) : Host.Outcome State Fault Refusal :=
  s.onDevice fun d => .done { d with regs.mode := v } (compositeEvents d.regs.mode v)

/-- OUT_COLSEL (R206). -/
def execOutColsel (v : Byte) (s : State) : Host.Outcome State Fault Refusal :=
  s.onRegs fun c => { c with colorSelect := v }

/-- OUT_NOP_3DA (R211). -/
def execOutNop3da (_v : Byte) (s : State) : Host.Outcome State Fault Refusal := s.onRegs id

/-- OUT_NOP_3DB (R211). -/
def execOutNop3db (_v : Byte) (s : State) : Host.Outcome State Fault Refusal := s.onRegs id

/-- OUT_NOP_3DC (R211). -/
def execOutNop3dc (_v : Byte) (s : State) : Host.Outcome State Fault Refusal := s.onRegs id

/-- An index wrapped into the extended block, `n mod 106` (R208, R209). -/
def wrapExt (n : Nat) : Fin 106 := ⟨n % 106, Nat.mod_lt n (by decide)⟩

/-- OUT_EXT_INDEX (R208). -/
def execOutExtIndex (v : Byte) (s : State) : Host.Outcome State Fault Refusal :=
  s.onRegs fun c => { c with extIndex := wrapExt v.toNat }

/-- The store of OUT_EXT_DATA with the index's increment (R209). -/
def setExtData (v : Byte) (c : Regs) : Regs :=
  { c with ext := c.ext.set c.extIndex v, extIndex := wrapExt (c.extIndex + 1) }

/-- The palette after a write at index `i`: the entry of a palette pair is recomputed (R209). -/
def paletteAfterExt (p : Params) (c : Regs) (pal : Vector Rgb 16) (i : Nat) : Vector Rgb 16 :=
  if 0x40 ≤ i ∧ i < 0x60 then recomputeEntry p c pal ((i - 0x40) / 2) else pal

/-- OUT_EXT_DATA (R209): store, recompute the palette entry by the index before the increment, increment. -/
def execOutExtData (v : Byte) (s : State) : Host.Outcome State Fault Refusal :=
  s.onDevice fun d =>
    let c := setExtData v d.regs
    .done { d with regs := c, palette := paletteAfterExt s.params c d.palette d.regs.extIndex } []

/-- OUT_RESERVED (R210): "reserved, no-op". -/
def execOutReserved (_v : Byte) (s : State) : Host.Outcome State Fault Refusal := s.onRegs id

/-- IOW_UNCLAIMED (R215). -/
def execIowUnclaimed (_port : BitVec 16) (_v : Byte) (s : State) : Host.Outcome State Fault Refusal := s.onRegs id

/-! ### I/O reads -/

/-- IN_CRTC_INDEX (R203): bits 7:5 read 0. -/
def execInCrtcIndex (s : State) : Host.Outcome State Fault Refusal :=
  s.onRead fun d => [.read (d.regs.crtcIndex.setWidth 8)]

/-- IN_CRTC_DATA (R204): the stored, masked value. -/
def execInCrtcData (s : State) : Host.Outcome State Fault Refusal :=
  s.onRead fun d => [.read d.regs.crtcSelected]

/-- A read by an instance takes one free value (log 13). -/
def State.drawn (s : State) : State := if s.device.isSome then { s with draws := s.draws + 1 } else s

/-- IN_STATUS (R207): the unspecified bits are a fresh draw on every read. -/
def execInStatus (s : State) : Host.Outcome State Fault Refusal :=
  s.drawn.onRead fun d => [.read (statusByte d.raster (Config.statusDraw s.draws))]

/-- The sentinel of a port with no readable register (R212). -/
def sentinel : Byte := 0xFF

/-- IN_FF_3D0 (R212). -/
def execInFf3d0 (_portAlias : BitVec 2) (s : State) : Host.Outcome State Fault Refusal := s.onRead fun _ => [.read sentinel]

/-- IN_FF_3D6 (R212). -/
def execInFf3d6 (_portAlias : BitVec 1) (s : State) : Host.Outcome State Fault Refusal := s.onRead fun _ => [.read sentinel]

/-- IN_FF_3D8 (R212). -/
def execInFf3d8 (_portAlias : BitVec 1) (s : State) : Host.Outcome State Fault Refusal := s.onRead fun _ => [.read sentinel]

/-- IN_FF_3DB (R212). -/
def execInFf3db (s : State) : Host.Outcome State Fault Refusal := s.onRead fun _ => [.read sentinel]

/-- IN_FF_3DC (R212). -/
def execInFf3dc (_portAlias : BitVec 2) (s : State) : Host.Outcome State Fault Refusal := s.onRead fun _ => [.read sentinel]

/-- IOR_UNCLAIMED (R215): the device drives no data. -/
def execIorUnclaimed (_port : BitVec 16) (s : State) : Host.Outcome State Fault Refusal := s.onRead fun _ => []

end Sys2Proof.Machine
end

