-- ==== Sys2Proof/Machine/VideoMemory.lean ====
section
/-! DEFINITION. The video-memory transactions of spec/40_register_file.md R213-R215. -/

namespace Sys2Proof.Machine

/-- MEMW (R213): one byte stored, one wait-state charge. -/
def execMemw (addr : BitVec 20) (v : Byte) (s : State) : Host.Outcome State Fault Refusal :=
  s.onDevice fun d =>
    .done { d with vram := Memory.write d.vram (vramOffset addr) v } [.waitCharge Config.memWait]

/-- MEMR (R214): one wait-state charge, then the byte. -/
def execMemr (addr : BitVec 20) (s : State) : Host.Outcome State Fault Refusal :=
  s.onRead fun d => [.waitCharge Config.memWait, .read (d.vramAt (vramOffset addr))]

/-- MEMW_UNCLAIMED (R215): no effect. -/
def execMemwUnclaimed (_addr : BitVec 20) (_v : Byte) (s : State) : Host.Outcome State Fault Refusal :=
  s.onRead fun _ => []

/-- MEMR_UNCLAIMED (R215): the device drives no data. -/
def execMemrUnclaimed (_addr : BitVec 20) (s : State) : Host.Outcome State Fault Refusal := s.onRead fun _ => []

end Sys2Proof.Machine
end

