-- ==== Sys2Proof/Machine/Dispatch.lean ====
section
/-! DEFINITION. One arm per operation: each a direct call of its meaning. -/

namespace Sys2Proof.Machine

def exec (i : Instr) (s : State) : Host.Outcome State Fault Refusal :=
  match i with
  | .outCrtcIndex portAlias v => Sys2Proof.Machine.execOutCrtcIndex portAlias v s
  | .outCrtcData portAlias v => Sys2Proof.Machine.execOutCrtcData portAlias v s
  | .outMode v => Sys2Proof.Machine.execOutMode v s
  | .outColsel v => Sys2Proof.Machine.execOutColsel v s
  | .outNop3da v => Sys2Proof.Machine.execOutNop3da v s
  | .outNop3db v => Sys2Proof.Machine.execOutNop3db v s
  | .outNop3dc v => Sys2Proof.Machine.execOutNop3dc v s
  | .outExtIndex v => Sys2Proof.Machine.execOutExtIndex v s
  | .outExtData v => Sys2Proof.Machine.execOutExtData v s
  | .outReserved v => Sys2Proof.Machine.execOutReserved v s
  | .iowUnclaimed port v => Sys2Proof.Machine.execIowUnclaimed port v s
  | .inCrtcIndex => Sys2Proof.Machine.execInCrtcIndex s
  | .inCrtcData => Sys2Proof.Machine.execInCrtcData s
  | .inStatus => Sys2Proof.Machine.execInStatus s
  | .inFf3d0 portAlias => Sys2Proof.Machine.execInFf3d0 portAlias s
  | .inFf3d6 portAlias => Sys2Proof.Machine.execInFf3d6 portAlias s
  | .inFf3d8 portAlias => Sys2Proof.Machine.execInFf3d8 portAlias s
  | .inFf3db => Sys2Proof.Machine.execInFf3db s
  | .inFf3dc portAlias => Sys2Proof.Machine.execInFf3dc portAlias s
  | .iorUnclaimed port => Sys2Proof.Machine.execIorUnclaimed port s
  | .memw addr v => Sys2Proof.Machine.execMemw addr v s
  | .memr addr => Sys2Proof.Machine.execMemr addr s
  | .memwUnclaimed addr v => Sys2Proof.Machine.execMemwUnclaimed addr v s
  | .memrUnclaimed addr => Sys2Proof.Machine.execMemrUnclaimed addr s
  | .tick => Sys2Proof.Machine.execTick s
  | .attach => Sys2Proof.Machine.execAttach s
  | .detach => Sys2Proof.Machine.execDetach s
  | .reserved7 => Sys2Proof.Machine.execReserved7 s
  | .reserved8to15 low => Sys2Proof.Machine.execReserved8to15 low s

end Sys2Proof.Machine
end

