-- ==== Sys2Proof/Machine/Step.lean ====
section
/-! DEFINITION. One step: the next operation of the sequence is taken, decoded and applied (spec/20_memory.md R107, R108).
With no operation pending nothing happens (log 1); after a refusal the run has ended until a new ATTACH (log 5). -/

namespace Sys2Proof.Machine

/-- One operation. -/
def step (s : State) : Host.Outcome State Fault Refusal :=
  match s.pending with
  | [] => .next s
  | op :: rest =>
    if s.mayRun (decodeWord s.params.window op.word) then
      exec (decodeWord s.params.window op.word) (s.accept op rest)
    else .refused .runEnded

/-- The state with the word put where `step` takes its next operation: at the head of the sequence (log 2). -/
def State.withFetchWord (s : State) (_nbits w : Nat) : State := s.issue (BitVec.ofNat 32 w)

end Sys2Proof.Machine
end

