-- ==== Sys2Proof/Machine/Sequence.lean ====
section
/-! DEFINITION. Sequences of operations: applying a list of them in order (spec/20_memory.md R107), and the pseudo-operations
of spec/30_encoding.md R153 as the lists they stand for. -/

namespace Sys2Proof.Machine

/-- Apply operations in order, stopping at the first that does not answer a next state. -/
def execSeq : List Instr → State → Host.Outcome State Fault Refusal
  | [], s => .next s
  | i :: rest, s =>
    match exec i s with
    | .next t => execSeq rest t
    | .fault f => .fault f
    | .refused r => .refused r

/-- `TICKS n` (R153). -/
def pseudoTicks (n : Nat) : List Instr := List.replicate n .tick

/-- `LINE` (R153). -/
def pseudoLine : List Instr := pseudoTicks 2

/-- `CRTC i, v`: through ports 0x3D4 and 0x3D5 (R153). -/
def pseudoCrtc (i v : Byte) : List Instr := [.outCrtcIndex 2 i, .outCrtcData 2 v]

/-- `EXT i, v0, …` (R153). -/
def pseudoExt (i : Byte) (vs : List Byte) : List Instr := .outExtIndex i :: vs.map .outExtData

/-- `PAL k, r, g, b` under the reference palette format (R153). -/
def pseudoPal (k : BitVec 4) (r g b : BitVec 3) : List Instr :=
  pseudoExt (0x40 + 2 * k.setWidth 8) [r.setWidth 8, (g.setWidth 8 <<< 4) ||| b.setWidth 8]

/-- `CURPOS x, y` (R153). -/
def pseudoCurpos (x : BitVec 16) (y : Byte) : List Instr :=
  pseudoExt 0x60 [x.extractLsb' 8 8, x.extractLsb' 0 8] ++ pseudoExt 0x63 [y]

/-- `MWS a, b0, …`: one `MW` an address, each claimed or not by the window test (R147, R153; the 20-bit address wraps:
log 22). -/
def pseudoMws (win : Window) (addr : BitVec 20) (bs : List Byte) : List Instr :=
  bs.zipIdx.map fun b => decodeMemw win (addr + BitVec.ofNat 20 b.2) b.1

end Sys2Proof.Machine
end

