-- ==== Sys2Proof/Safety.lean ====
section
/-! DEFINITION. What claims are stated in: the invariant of the machine, a safe run, the part of the state an operation of the
instance leaves alone, and the position of the raster within its frame. -/

namespace Sys2Proof.Machine

/-! ### The invariant -/

/-- "`palette` is always consistent with the last-written [0x40,0x60) register pairs" (spec/43_attribute_palette.md R383). -/
def PaletteConsistent (p : Params) (d : Device) : Prop := ∀ k : Fin 16, d.palette[k] = palEntry p d.regs k

/-- Masked-off bits of every CRTC register are 0 (spec/10_state.md R32). -/
def CrtcMasked (p : Params) (d : Device) : Prop := ∀ i : Fin 32, d.regs.crtc[i] &&& ~~~p.crtcMask[i] = 0

/-- The invariant of an instance: canonical video memory, consistent palette, masked CRTC registers. -/
structure Device.Inv (p : Params) (d : Device) : Prop where
  memory : Memory.wf d.vram
  palette : PaletteConsistent p d
  crtc : CrtcMasked p d

/-- The invariant of the machine: that of its instance, if there is one. -/
def State.Inv (s : State) : Prop := ∀ d, s.device = some d → d.Inv s.params

/-! ### Safe runs -/

/-- No operation has been refused: the premise of every claim about a run (spec/10_state.md R72). -/
def State.Safe (s : State) : Prop := s.refused = false

/-- A rendering TICK has a meaning here: the display is off or the configuration is supported
(spec/60_exceptions.md R506). -/
def Renders (p : Params) (d : Device) : Prop := d.raster.dispOn = false ∨ isUnsupported p d = false

/-! ### Frames -/

/-- What no operation of an attached instance changes: the parameters, the sequence, the pending operands of ATTACH, the
refusal mark. -/
structure SameHost (s t : State) : Prop where
  params : t.params = s.params
  pending : t.pending = s.pending
  attachIn : t.attachIn = s.attachIn
  refused : t.refused = s.refused

/-- What a TICK leaves alone of the instance: registers, palette, video memory, configuration
(spec/41_timing.md R263). -/
structure SameStores (d d' : Device) : Prop where
  regs : d'.regs = d.regs
  palette : d'.palette = d.palette
  vram : d'.vram = d.vram
  config : d'.config = d.config

/-- What a bus transaction leaves alone of the instance: the raster position, the frame bookkeeping, the configuration
(spec/10_state.md R70). -/
structure SameSequencer (d d' : Device) : Prop where
  raster : d'.raster = d.raster
  frame : d'.frame = d.frame
  config : d'.config = d.config

/-- Operations of the host CPU: the I/O and memory transactions. -/
def isBusOperation : Instr → Bool
  | .outCrtcIndex _ _ => true
  | .outCrtcData _ _ => true
  | .outMode _ => true
  | .outColsel _ => true
  | .outNop3da _ => true
  | .outNop3db _ => true
  | .outNop3dc _ => true
  | .outExtIndex _ => true
  | .outExtData _ => true
  | .outReserved _ => true
  | .iowUnclaimed _ _ => true
  | .inCrtcIndex => true
  | .inCrtcData => true
  | .inStatus => true
  | .inFf3d0 _ => true
  | .inFf3d6 _ => true
  | .inFf3d8 _ => true
  | .inFf3db => true
  | .inFf3dc _ => true
  | .iorUnclaimed _ => true
  | .memw _ _ => true
  | .memr _ => true
  | .memwUnclaimed _ _ => true
  | .memrUnclaimed _ => true
  | .tick => false
  | .attach => false
  | .detach => false
  | .reserved7 => false
  | .reserved8to15 _ => false

/-! ### The position of the raster within its frame (spec/41_timing.md R260-R262) -/

/-- `TOTAL = END + ADJ` (R260). -/
def totalLines (p : Params) (c : Regs) : Nat := (vertEntry p c).endLine + (vertEntry p c).adj.toNat

/-- The line of the frame the raster is on: 0 at the top of the frame. -/
def frameLine (p : Params) (c : Regs) (r : Raster) : Nat :=
  if r.adjRem = 0 then r.vCounter.toNat * rowHeight c + r.scanline.toNat
  else (vertEntry p c).endLine + ((adjustLines p c).toNat - r.adjRem.toNat)

/-- The raster is on a line of a frame of the current geometry: inside a row, or inside the pad lines with the row counter
back at 0. -/
def InFrame (p : Params) (c : Regs) (r : Raster) : Prop :=
  if r.adjRem = 0 then r.scanline.toNat < rowHeight c ∧ r.vCounter.toNat ≤ lastRow p c
  else r.vCounter = 0 ∧ r.adjRem ≤ adjustLines p c

end Sys2Proof.Machine
end

