-- ==== Sys2Proof/Certificates/Slice0/Obligations.lean ====
section
/-! DEFINITION. The statements for the provers. Each docstring names the rule of spec/ it formalises. A statement with an
instance `d` of the state `s` as a hypothesis describes the whole next state: what is not written out as changed is that of
`s` or `d`. -/

open Sys2Proof Sys2Proof.Machine

/-! ### One step -/

/-- R107, R108 (how the sequence is held is the model's: logs 1-3). A step applies the decoded head operation to the state
with that operation taken off the sequence and its out-of-band operands latched. -/
def Obligations.StepRunsTheDecodedOperation : Prop :=
  (∀ (s : State) (op : HostOp) (rest : List HostOp), s.pending = op :: rest →
    (s.refused = false ∨ decodeWord s.params.window op.word = .attach) →
    step s = exec (decodeWord s.params.window op.word)
      { s with pending := rest, attachIn := op.attach.getD s.attachIn }) ∧
  (∀ (s : State) (nbits w : Nat), s.refused = false →
    step (s.withFetchWord nbits w) = exec (decodeWord s.params.window (BitVec.ofNat 32 w)) s)

/-- R506, R516 (the model's reading: logs 1, 5). With no operation pending nothing happens; after a refusal the run has ended
for every operation but ATTACH. -/
def Obligations.StepIdlesWhenEmptyAndStopsAfterRefusal : Prop :=
  (∀ s : State, s.pending = [] → step s = .next s) ∧
  (∀ (s : State) (op : HostOp) (rest : List HostOp), s.pending = op :: rest → s.refused = true →
    decodeWord s.params.window op.word ≠ .attach → step s = .refused .runEnded)

/-! ### Encoding -/

/-- R140-R149, R152. Decoding an encoded well-formed instruction gives it back, under every window. -/
def Obligations.DecodeOfEncodeIsTheInstruction : Prop :=
  ∀ (win : Window) (i : Instr), i.wf win = true → decodeWord win (encode i) = i

/-- R101, R102, R143. Every word decodes to a well-formed instruction: a claimed row has its address inside the window, an
unclaimed row its port or address outside. -/
def Obligations.EveryWordDecodesToAWellFormedInstruction : Prop :=
  ∀ (win : Window) (w : Word), (decodeWord win w).wf win = true

/-- R140, R148. Encoding what was decoded gives the word with its ignored bits cleared: no bit that is read is dropped, and
bits 27:24 of an I/O word, 7:0 of a read and 27:0 of a non-bus word are not read. -/
def Obligations.EncodeOfDecodeKeepsEveryReadBit : Prop :=
  ∀ (win : Window) (w : Word), encode (decodeWord win w) = w &&& readBits (decodeWord win w)

/-- R143. Under the reference window, every word selects exactly one row of the opcode table (a fallback row only when no
other row of its kind matches), and the decoder gives that row. -/
def Obligations.DecoderFollowsTheOpcodeTable : Prop :=
  ∀ w : Word, tableMnemonics w = [(decodeWord Window.reference w).mnemonic]

/-- R144. A CRTC write decodes by `p & 0xFFF9`; only 0x3D4 reads the index and only 0x3D5 the data. -/
def Obligations.CrtcPortsAreMirroredForWritesOnly : Prop :=
  ∀ (win : Window) (port : BitVec 16) (v : Byte),
    ((port &&& 0xFFF9 = 0x3D0 ↔ ∃ al, decodeWord win (encodeIow port v) = .outCrtcIndex al v) ∧
      (port &&& 0xFFF9 = 0x3D1 ↔ ∃ al, decodeWord win (encodeIow port v) = .outCrtcData al v)) ∧
    ((port = 0x3D4 ↔ decodeWord win (encodeIor port) = .inCrtcIndex) ∧
      (port = 0x3D5 ↔ decodeWord win (encodeIor port) = .inCrtcData))

/-- The words E1-E11 of spec/95_test_vectors.md. -/
def Obligations.VectorWordsDecodeAsListed : Prop :=
  decodeWord Window.reference 0x0003D5FF = .outCrtcData 2 0xFF ∧
  decodeWord Window.reference 0x0F03D5FF = .outCrtcData 2 0xFF ∧
  decodeWord Window.reference 0x0003D7FF = .outCrtcData 3 0xFF ∧
  decodeWord Window.reference 0x1003D100 = .inFf3d0 1 ∧
  decodeWord Window.reference 0x1003D4AB = .inCrtcIndex ∧
  decodeWord Window.reference 0x2BC00141 = .memw 0xBC001 0x41 ∧
  decodeWord Window.reference 0x2B000041 = .memwUnclaimed 0xB0000 0x41 ∧
  decodeWord Window.reference 0x4FFFFFFF = .tick ∧
  decodeWord Window.reference 0x70000000 = .reserved7 ∧
  decodeWord Window.reference 0xF0000000 = .reserved8to15 7 ∧
  decodeWord Window.reference 0x0003B400 = .iowUnclaimed 0x3B4 0x00

/-! ### The register file -/

/-- R200. OUT_CRTC_INDEX stores `v mod 32` and changes nothing else, at each of the four ports. -/
def Obligations.CrtcIndexWriteWrapsMod32 : Prop :=
  ∀ (s : State) (d : Device) (portAlias : BitVec 2) (v : Byte), s.device = some d →
    exec (.outCrtcIndex portAlias v) s = .next { s with
      device := some { d with regs := { d.regs with crtcIndex := BitVec.ofNat 5 (v.toNat % 32) } },
      outcome := .done }

/-- R201, R202. OUT_CRTC_DATA stores the masked value in the selected register; every other register, the index and the rest
of the machine are unchanged, and no event is emitted (the recomputation writes nothing). -/
def Obligations.CrtcDataWriteStoresTheMaskedValue : Prop :=
  ∀ (s : State) (d : Device) (portAlias : BitVec 2) (v : Byte), s.device = some d →
    ∃ d', exec (.outCrtcData portAlias v) s = .next { s with device := some d', outcome := .done } ∧
      d' = { d with regs := { d.regs with crtc := d'.regs.crtc } } ∧
      ∀ i : Fin 32, d'.regs.crtc[i] =
        if i.val = d.regs.crtcIndex.toNat then v &&& s.params.crtcMask[i] else d.regs.crtc[i]

/-- R203, R204. The two CRTC reads return the zero-extended index and the selected register, and change nothing. -/
def Obligations.CrtcReadsReturnIndexAndSelectedRegister : Prop :=
  ∀ (s : State) (d : Device), s.device = some d →
    exec .inCrtcIndex s = .next { s with
      outcome := .done, events := s.events ++ [.read (BitVec.ofNat 8 d.regs.crtcIndex.toNat)] } ∧
    exec .inCrtcData s = .next { s with
      outcome := .done, events := s.events ++ [.read (d.regs.crtc[d.regs.crtcIndex.toNat]'d.regs.crtcIndex.isLt)] }

/-- R200, R201, R204 (source example S4). `CRTC i, v` and then a read of 0x3D5 returns `v` under the mask of register
`i mod 32`. -/
def Obligations.CrtcWriteReadsBackMasked : Prop :=
  ∀ (s : State) (d : Device) (i v : Byte), s.device = some d →
    ∃ t, execSeq (pseudoCrtc i v ++ [.inCrtcData]) s = .next t ∧
      t.events = s.events ++ [.read (v &&& s.params.crtcMask[i.toNat % 32]?.getD 0)]

/-- R205, R206, R438. OUT_MODE stores all eight bits and emits `CompositeRebuild(v)` exactly when bit 0 or bit 2 toggles;
OUT_COLSEL stores all eight bits. Nothing else changes. -/
def Obligations.ModeAndColourSelectWritesStoreTheByte : Prop :=
  ∀ (s : State) (d : Device) (v : Byte), s.device = some d →
    exec (.outMode v) s = .next { s with
      device := some { d with regs := { d.regs with mode := v } },
      outcome := .done,
      events := s.events ++
        (if v.getLsbD 0 ≠ d.regs.mode.getLsbD 0 ∨ v.getLsbD 2 ≠ d.regs.mode.getLsbD 2
          then [.compositeRebuild v] else []) } ∧
    exec (.outColsel v) s = .next { s with
      device := some { d with regs := { d.regs with colorSelect := v } }, outcome := .done }

/-- R207 (the draw is the model's free value: log 13). IN_STATUS returns bit 0 = BlankHalf or display off, bit 3 = VSync
active, the six other bits from the draw, and changes nothing but the count of draws. -/
def Obligations.StatusReadGivesRetraceAndVsync : Prop :=
  ∀ (s : State) (d : Device), s.device = some d →
    ∃ b : Byte, exec .inStatus s = .next { s with
        outcome := .done, events := s.events ++ [.read b], draws := s.draws + 1 } ∧
      b.getLsbD 0 = decide (d.raster.half = .blank ∨ d.raster.dispOn = false) ∧
      b.getLsbD 3 = decide (0 < d.raster.vsyncRem.toNat) ∧
      ∀ i : Fin 8, i ≠ 0 → i ≠ 3 → b.getLsbD i = (Config.statusDraw s.draws).getLsbD i

/-- R208. OUT_EXT_INDEX stores `v mod 106` and changes nothing else. -/
def Obligations.ExtIndexWriteWrapsMod106 : Prop :=
  ∀ (s : State) (d : Device) (v : Byte), s.device = some d →
    ∃ d', exec (.outExtIndex v) s = .next { s with device := some d', outcome := .done } ∧
      d' = { d with regs := { d.regs with extIndex := d'.regs.extIndex } } ∧
      d'.regs.extIndex.val = v.toNat % 106

/-- R209. OUT_EXT_DATA stores the byte at the index, recomputes the one palette entry whose pair it wrote from both stored
bytes, advances the index modulo 106, and changes nothing else. -/
def Obligations.ExtDataWriteStoresRecomputesAndAdvances : Prop :=
  ∀ (s : State) (d : Device) (v : Byte), s.device = some d →
    ∃ d', exec (.outExtData v) s = .next { s with device := some d', outcome := .done } ∧
      d' = { d with
        regs := { d.regs with ext := d'.regs.ext, extIndex := d'.regs.extIndex }, palette := d'.palette } ∧
      (∀ j : Fin 106, d'.regs.ext[j] = if j = d.regs.extIndex then v else d.regs.ext[j]) ∧
      d'.regs.extIndex.val = (d.regs.extIndex.val + 1) % 106 ∧
      ∀ k : Fin 16, d'.palette[k] =
        if d.regs.extIndex.val = 0x40 + 2 * k.val ∨ d.regs.extIndex.val = 0x41 + 2 * k.val
        then palEntry s.params d'.regs k else d.palette[k]

/-- R209 (source example S2 as 90_conflicts.md C4 corrects it). A block of at most 106 sequential OUT_EXT_DATA writes from
index `i` puts its n-th byte at `(i + n) mod 106`, leaves every other extended register alone, and ends at index
`(i + length) mod 106`. -/
def Obligations.ExtBlockLoadFillsSequentially : Prop :=
  ∀ (vs : List Byte) (s : State) (d : Device), s.device = some d → vs.length ≤ 106 →
    ∃ t d', execSeq (vs.map .outExtData) s = .next t ∧ t.device = some d' ∧
      d'.regs.extIndex.val = (d.regs.extIndex.val + vs.length) % 106 ∧
      (∀ n v, vs[n]? = some v → d'.regs.ext[(d.regs.extIndex.val + n) % 106]? = some v) ∧
      (∀ j : Fin 106, (∀ n, n < vs.length → j.val ≠ (d.regs.extIndex.val + n) % 106) →
        d'.regs.ext[j] = d.regs.ext[j])

/-- R210, R211. Writes to 0x3DF and to 0x3DA-0x3DC leave the whole machine unchanged. -/
def Obligations.NoOpPortWritesChangeNothing : Prop :=
  ∀ (s : State) (d : Device) (v : Byte), s.device = some d →
    exec (.outReserved v) s = .next { s with outcome := .done } ∧
    exec (.outNop3da v) s = .next { s with outcome := .done } ∧
    exec (.outNop3db v) s = .next { s with outcome := .done } ∧
    exec (.outNop3dc v) s = .next { s with outcome := .done }

/-- R212. Reads of ports with no readable register return 0xFF and change nothing. -/
def Obligations.SentinelReadsReturnFF : Prop :=
  ∀ (s : State) (d : Device) (a : BitVec 2) (b : BitVec 1), s.device = some d →
    ∀ i ∈ [Instr.inFf3d0 a, .inFf3d6 b, .inFf3d8 b, .inFf3db, .inFf3dc a],
      exec i s = .next { s with outcome := .done, events := s.events ++ [.read 0xFF] }

/-- R215. Unclaimed transactions leave the state unchanged, drive no data and emit nothing. -/
def Obligations.UnclaimedTransactionsChangeNothing : Prop :=
  ∀ (s : State) (d : Device) (port : BitVec 16) (addr : BitVec 20) (v : Byte), s.device = some d →
    ∀ i ∈ [Instr.iowUnclaimed port v, .iorUnclaimed port, .memwUnclaimed addr v, .memrUnclaimed addr],
      exec i s = .next { s with outcome := .done }

/-! ### Video memory -/

/-- R102, R213, R439. MEMW stores one byte at `addr mod 0x4000`; every other byte reads as before, nothing else changes, and
one wait-state charge is emitted. -/
def Obligations.MemWriteStoresOneByteAndCharges : Prop :=
  ∀ (s : State) (d : Device) (addr : BitVec 20) (v : Byte), s.device = some d → Memory.wf d.vram →
    ∃ d', exec (.memw addr v) s = .next { s with
        device := some d', outcome := .done, events := s.events ++ [.waitCharge Config.memWait] } ∧
      d' = { d with vram := d'.vram } ∧
      ∀ a : Nat, d'.vramAt a = if a = addr.toNat % 0x4000 then v else d.vramAt a

/-- R214, R439. MEMR emits one wait-state charge, returns the byte at `addr mod 0x4000`, and changes nothing. -/
def Obligations.MemReadReturnsTheByteAndCharges : Prop :=
  ∀ (s : State) (d : Device) (addr : BitVec 20), s.device = some d →
    exec (.memr addr) s = .next { s with
      outcome := .done,
      events := s.events ++ [.waitCharge Config.memWait, .read (d.vramAt (addr.toNat % 0x4000))] }

/-- R102, R213, R214. A MEMR after a MEMW returns the byte written exactly when the two addresses are aliases 16 KB apart or
equal, and the earlier byte otherwise. -/
def Obligations.MemReadAfterWriteSeesAliases : Prop :=
  ∀ (s : State) (d : Device) (a b : BitVec 20) (v : Byte), s.device = some d → Memory.wf d.vram →
    ∃ t, execSeq [.memw a v, .memr b] s = .next t ∧
      t.events = s.events ++ [.waitCharge Config.memWait, .waitCharge Config.memWait,
        .read (if a.toNat % 0x4000 = b.toNat % 0x4000 then v else d.vramAt (b.toNat % 0x4000))]

/-! ### Lifecycle and refusals -/

/-- R600, R74. A successful ATTACH leaves a fresh instance: every field zero but the default palette bytes, the palette they
give, the default resolution code and the configuration; it clears the refusal mark and emits no event. -/
def Obligations.AttachCreatesAZeroedInstanceWithDefaults : Prop :=
  ∀ s : State, s.attachIn.allocOk = true →
    ∃ d', exec .attach s = .next { s with device := some d', refused := false, outcome := .done } ∧
      d'.regs.crtcIndex = 0 ∧ (∀ i : Fin 32, d'.regs.crtc[i] = 0) ∧ d'.regs.extIndex = 0 ∧
      (∀ j : Fin 32, d'.regs.ext[0x40 + j.val]? = some s.params.defaultPal[j]) ∧
      d'.regs.ext[0x65] = s.params.defaultRes ∧
      (∀ j : Fin 106, (j.val < 0x40 ∨ 0x60 ≤ j.val) → j.val ≠ 0x65 → d'.regs.ext[j] = 0) ∧
      d'.regs.mode = 0 ∧ d'.regs.colorSelect = 0 ∧
      (∀ k : Fin 16, d'.palette[k] = palEntry s.params d'.regs k) ∧
      (∀ a, d'.vramAt a = 0) ∧ d'.config = s.attachIn.config ∧
      d'.raster = { half := .blank, scanline := 0, vCounter := 0, displayLine := 0, memAddr := 0, memAddrBack := 0,
                    adjRem := 0, vsyncRem := 0, dispOn := false, con := false, cursorBlinkOn := false,
                    shadow := Vector.replicate 160 0 } ∧
      d'.frame = { firstLine := 0, lastLine := 0, blinkCounter := 0, oddEven := false, prevW := 0, prevH := 0,
                   frameLines := [] }

/-- R600, R382. With the reference parameters ATTACH gives exactly the model's reset instance, whose palette is the table of
R382 written out (the parameters' reference values are the spec's choice: log 9). -/
def Obligations.AttachWithReferenceParametersGivesReset : Prop :=
  ∀ s : State, s.params = Params.reference → s.attachIn.allocOk = true →
    exec .attach s = .next { s with
      device := some { Device.reset with config := s.attachIn.config }, refused := false, outcome := .done }

/-- R502, R601. An ATTACH whose video memory cannot be allocated ends with AttachFailed and DETACH ends as done; neither
leaves an instance, changes anything else, or emits an event (that the refusal mark stays is the model's: logs 7, 8). -/
def Obligations.AttachFailureAndDetachLeaveNoInstance : Prop :=
  (∀ s : State, s.attachIn.allocOk = false →
    exec .attach s = .next { s with device := none, outcome := .attachFailed }) ∧
  (∀ (s : State) (d : Device), s.device = some d → exec .detach s = .next { s with device := none, outcome := .done })

/-- R507. A reserved kind is refused, and so is every operation but ATTACH when no instance exists: the mark is set and
nothing else of the machine changes. -/
def Obligations.ReservedKindsAndMissingInstanceAreRefused : Prop :=
  ∀ s : State,
    exec .reserved7 s = .next { s with refused := true, outcome := .refused .reservedKind } ∧
    (∀ low, exec (.reserved8to15 low) s = .next { s with refused := true, outcome := .refused .reservedKind }) ∧
    (s.device = none → ∀ i : Instr, i ≠ .attach → i ≠ .reserved7 → (∀ low, i ≠ .reserved8to15 low) →
      exec i s = .next { s with refused := true, outcome := .refused .noInstance })

/-- R506. A rendering TICK on a displayed line of an unsupported configuration is refused: no line, no change but the mark
(that P_UNSUPPORTED is given as patterns over every field of the state is the model's: log 11). -/
def Obligations.UnsupportedDisplayedTickIsRefused : Prop :=
  ∀ (s : State) (d : Device), s.device = some d → d.raster.half = .blank → d.raster.dispOn = true →
    isUnsupported s.params d = true →
    exec .tick s = .next { s with refused := true, outcome := .refused .unsupportedConfiguration }

/-! ### TICK -/

/-- R263. A TICK toggles the half-phase and never changes the registers, the palette, the video memory or the
configuration. -/
def Obligations.TickTogglesHalfAndKeepsStores : Prop :=
  ∀ (s : State) (d : Device), s.device = some d → (d.raster.half = .visible ∨ Renders s.params d) →
    ∃ t d', exec .tick s = .next t ∧ t.device = some d' ∧ t.outcome = .done ∧ SameHost s t ∧ t.draws = s.draws ∧
      SameStores d d' ∧ d'.raster.half = (if d.raster.half = .blank then .visible else .blank)

/-- R266, R264, R347. A rendering TICK emits exactly one line, with the line number before its increment and the current
mode: the border fill when the display is off or the video-enable gate replaces the line, else the rendered line with the
hardware cursor composited. That the converted line joins the accumulated block `frameLines` is the model's reading of R436
(log 19). -/
def Obligations.RenderingTickEmitsExactlyOneLine : Prop :=
  ∀ (s : State) (d : Device), s.device = some d → d.raster.half = .blank → Renders s.params d →
    ∃ t d' px, exec .tick s = .next t ∧ t.device = some d' ∧
      t.events = s.events ++ [.line d.raster.displayLine px d.regs.mode] ∧
      d'.raster.displayLine.toNat = (d.raster.displayLine.toNat + 1) % 65536 ∧
      px = (if d.raster.dispOn = false ∨ (s.params.videoEnableGates = true ∧ d.regs.mode.getLsbD 3 = false)
        then borderFill d.regs else cursorOverlay s.params d (renderLine s.params d)) ∧
      d'.frame.frameLines = d.frame.frameLines ++ [(d.raster.displayLine, hostLine s.params d px)]

/-- R346, R264, R265. With the display off, a rendering TICK moves only the half-phase and the line number, leaves the
bounds alone, and its border is flat: 0 in Graphics640, `colorSelect[3:0]` otherwise. -/
def Obligations.BorderLineIsFlatAndMovesNoAddress : Prop :=
  (∀ (s : State) (d : Device), s.device = some d → d.raster.half = .blank → d.raster.dispOn = false →
    ∃ t d', exec .tick s = .next t ∧ t.device = some d' ∧
      t.events = s.events ++ [.line d.raster.displayLine (borderFill d.regs) d.regs.mode] ∧
      d'.raster = { d.raster with half := .visible, displayLine := d'.raster.displayLine } ∧
      d'.frame = { d.frame with frameLines := d'.frame.frameLines }) ∧
  (∀ (c : Regs) (x : Fin 640), (borderFill c)[x] =
    if c.mode.getLsbD 0 = false ∧ c.mode.getLsbD 1 = true ∧ c.mode.getLsbD 4 = true then 0
    else c.colorSelect.extractLsb' 0 4)

/-- R265, R321, R322. With the display on, a rendering TICK records the line in the bounds and advances `memAddr` by the
variant's cells, 80 in Text80 and 40 otherwise; the rest of the raster and of the bookkeeping is unchanged. -/
def Obligations.DisplayedTickUpdatesBoundsAndAddress : Prop :=
  ∀ (s : State) (d : Device), s.device = some d → d.raster.half = .blank → d.raster.dispOn = true →
    isUnsupported s.params d = false →
    ∃ t d', exec .tick s = .next t ∧ t.device = some d' ∧
      d'.frame.firstLine.toNat = min d.frame.firstLine.toNat d.raster.displayLine.toNat ∧
      d'.frame.lastLine = d.raster.displayLine ∧
      d'.raster.memAddr.toNat =
        (d.raster.memAddr.toNat + if d.regs.mode.getLsbD 0 = true then 80 else 40) % 0x4000 ∧
      d'.raster = { d.raster with
        half := .visible, displayLine := d'.raster.displayLine, memAddr := d'.raster.memAddr } ∧
      d'.frame = { d.frame with
        firstLine := d'.frame.firstLine, lastLine := d'.frame.lastLine, frameLines := d'.frame.frameLines }

/-- R274, R270, R271, R261. An advancing TICK inside a row, of 8 scanlines in text and 2 in graphics, steps the scanline modulo
32, goes back to the row's first cell, and counts the VSync pulse down. -/
def Obligations.AdvancingTickInsideARowRereadsItsCells : Prop :=
  ∀ (s : State) (d : Device), s.device = some d → d.raster.half = .visible → d.raster.adjRem = 0 →
    let rh : Nat := if d.regs.mode.getLsbD 0 = true ∨ d.regs.mode.getLsbD 1 = false then 8 else 2
    d.raster.scanline.toNat ≠ rh - 1 →
    ∃ t d', exec .tick s = .next t ∧ t.device = some d' ∧
      d'.raster.scanline.toNat = (d.raster.scanline.toNat + 1) % 32 ∧
      d'.raster.memAddr = d.raster.memAddrBack ∧
      d'.raster.vsyncRem.toNat = d.raster.vsyncRem.toNat - 1 ∧
      d'.raster = { d.raster with
        half := .blank, scanline := d'.raster.scanline, memAddr := d'.raster.memAddr, vsyncRem := d'.raster.vsyncRem,
        con := d'.raster.con, shadow := d'.raster.shadow }

/-- R272, R275, R271. An advancing TICK in VerticalAdjust counts one pad line and one line of the VSync pulse; the last pad line
restarts the frame at its top. -/
def Obligations.AdvancingTickInVerticalAdjustCountsPadLines : Prop :=
  ∀ (s : State) (d : Device), s.device = some d → d.raster.half = .visible → d.raster.adjRem ≠ 0 →
    ∃ t d', exec .tick s = .next t ∧ t.device = some d' ∧
      d'.raster.adjRem.toNat = d.raster.adjRem.toNat - 1 ∧
      d'.raster.vsyncRem.toNat = d.raster.vsyncRem.toNat - 1 ∧
      (if d.raster.adjRem = 1 then
        d'.raster.dispOn = true ∧ d'.raster.scanline = 0 ∧
        d'.raster.memAddr.toNat = (d.regs.crtc[12].toNat * 256 + d.regs.crtc[13].toNat) % 0x4000 ∧
        d'.raster.memAddrBack = d'.raster.memAddr
      else
        d'.raster.dispOn = d.raster.dispOn ∧
        d'.raster.scanline.toNat = (d.raster.scanline.toNat + 1) % 32 ∧
        d'.raster.memAddr = d.raster.memAddrBack ∧ d'.raster.memAddrBack = d.raster.memAddrBack) ∧
      d'.raster.vCounter = d.raster.vCounter ∧ d'.raster.displayLine = d.raster.displayLine ∧
      d'.raster.cursorBlinkOn = d.raster.cursorBlinkOn

/-- R273, R275, R413, R261, R69, R42. An advancing TICK at the last scanline of a row ends the row: the row counter steps modulo
128, the end of the last row loads the pad lines, restarts the frame when there are none and latches the text cursor's blink,
the end of the displayed rows and the VSync row switch the display off, and the VSync row starts the pulse and the line
numbers. The row constants are those of the lookup entry of the height code in ext[0x65], divided by the row height (the
blink latch is the spec's text-cursor decision D30: log 36). -/
def Obligations.AdvancingTickAtRowEndStepsTheFrame : Prop :=
  ∀ (s : State) (d : Device), s.device = some d → d.raster.half = .visible → d.raster.adjRem = 0 →
    let rh : Nat := if d.regs.mode.getLsbD 0 = true ∨ d.regs.mode.getLsbD 1 = false then 8 else 2
    let e : VertEntry := s.params.vtab[d.regs.ext[0x65].toNat / 2 ^ s.params.resHLsb.val % 4]'(Nat.mod_lt _ (by decide))
    d.raster.scanline.toNat = rh - 1 →
    let old := d.raster.vCounter.toNat
    let next := (old + 1) % 128
    let atEnd := old = e.endLine / rh - 1
    let restart := atEnd ∧ e.adj = 0
    let startsVsync := (if atEnd then 0 else next) = e.vsync / rh
    ∃ t d', exec .tick s = .next t ∧ t.device = some d' ∧
      d'.raster.scanline = 0 ∧
      d'.raster.vCounter.toNat = (if atEnd then 0 else next) ∧
      d'.raster.memAddr.toNat = (if restart then (d.regs.crtc[12].toNat * 256 + d.regs.crtc[13].toNat) % 0x4000
        else d.raster.memAddr.toNat) ∧
      d'.raster.memAddrBack = d'.raster.memAddr ∧
      d'.raster.adjRem = (if atEnd then e.adj else 0) ∧
      d'.raster.dispOn = (if startsVsync then false else if restart then true
        else if next = e.vis / rh then false else d.raster.dispOn) ∧
      d'.raster.displayLine = (if startsVsync then 0 else d.raster.displayLine) ∧
      (startsVsync → d'.raster.vsyncRem = s.params.vsyncLines) ∧
      (¬ startsVsync → d'.raster.vsyncRem.toNat = d.raster.vsyncRem.toNat - 1) ∧
      d'.raster.cursorBlinkOn = (if atEnd then
          decide (d.regs.crtc[10] &&& 0x60 ≠ 0x20) && d'.frame.blinkCounter.getLsbD 3
        else d.raster.cursorBlinkOn)

/-- R271, R276, R277, R436, R437. An advancing TICK finalises the frame exactly when it counts the VSync pulse down to 0: it
emits one FrameDone with the width of the width bit, the height of the observed bounds, whether they changed, and the
accumulated lines, then restarts the bounds, records the dimensions and steps the blink counter and the odd/even flag. No
other operation in any state emits a FrameDone. The block of lines and the height 0 at the bounds 0 and 0xFFFF are the model's
reading (logs 19, 20). -/
def Obligations.VsyncPulseEndFinalisesTheFrame : Prop :=
  (∀ (s : State) (d : Device), s.device = some d → d.raster.half = .visible →
    let w := if d.regs.ext[0x65].getLsbD s.params.resWBit then s.params.frameW[1] else s.params.frameW[0]
    let h := if d.frame.firstLine ≤ d.frame.lastLine then d.frame.lastLine - d.frame.firstLine + 1 else 0
    let descriptor : Descriptor := match variant d.regs with
      | .text80 => .cells (w.toNat / 8) (h.toNat / 8)
      | .text40 => .cells (w.toNat / 16) (h.toNat / 8)
      | .graphics320 => .pixels (w.toNat / 2) h.toNat 2
      | .graphics640 => .pixels w.toNat h.toNat 1
    ∃ t d', exec .tick s = .next t ∧ t.device = some d' ∧
      (if d.raster.vsyncRem = 1 then
        t.events = s.events ++ [.frameDone w h d.frame.firstLine d.frame.lastLine (variant d.regs).isText
          (decide (w ≠ d.frame.prevW ∨ h ≠ d.frame.prevH)) descriptor d.frame.frameLines] ∧
        d'.frame = { firstLine := 0xFFFF, lastLine := 0, blinkCounter := d.frame.blinkCounter + 1,
                     oddEven := !d.frame.oddEven, prevW := w, prevH := h, frameLines := [] }
      else t.events = s.events ∧ d'.frame = d.frame)) ∧
  (∀ (i : Instr) (s : State),
    (∀ d, s.device = some d → ¬ (i = .tick ∧ d.raster.half = .visible ∧ d.raster.vsyncRem = 1)) →
    ∃ t out, exec i s = .next t ∧ t.events = s.events ++ out ∧
      ∀ w h first last isText changed descriptor block,
        Event.frameDone w h first last isText changed descriptor block ∉ out)

/-- R414, R415, R416. At an advancing TICK the text cursor's `con` is cleared by the end scanline before the vertical advance
and set by the start scanline after it, in a height code of ext[0x65] that is interlaced also at their halves (what the spec marks
as general knowledge: logs 33, 36). -/
def Obligations.TextCursorLimitsSetAndClearCon : Prop :=
  ∀ (s : State) (d : Device), s.device = some d → d.raster.half = .visible →
    let interlaced : Bool := s.params.interlaced[d.regs.ext[0x65].toNat / 2 ^ s.params.resHLsb.val % 4]'(Nat.mod_lt _ (by decide))
    ∃ t d', exec .tick s = .next t ∧ t.device = some d' ∧
      let meets (line : BitVec 5) (register : Byte) : Prop :=
        line.toNat = register.toNat % 32 ∨
          (interlaced = true ∧ line.toNat = register.toNat % 32 / 2)
      (meets d'.raster.scanline d.regs.crtc[10] → d'.raster.con = true) ∧
      (¬ meets d'.raster.scanline d.regs.crtc[10] → meets d.raster.scanline d.regs.crtc[11] → d'.raster.con = false) ∧
      (¬ meets d'.raster.scanline d.regs.crtc[10] → ¬ meets d.raster.scanline d.regs.crtc[11] →
        d'.raster.con = d.raster.con)

/-- R290. The last action of an advancing TICK captures the next line's 160 bytes when the display is on in Text80, and
otherwise leaves the shadow unchanged. -/
def Obligations.ShadowRefreshCapturesTheNextText80Line : Prop :=
  ∀ (s : State) (d : Device), s.device = some d → d.raster.half = .visible →
    ∃ t d', exec .tick s = .next t ∧ t.device = some d' ∧
      if d'.raster.dispOn = true ∧ d.regs.mode.getLsbD 0 = true then
        ∀ j : Fin 160, d'.raster.shadow[j] = d.vramAt ((2 * d'.raster.memAddr.toNat + j.val) % 0x4000)
      else d'.raster.shadow = d.raster.shadow

/-- R109, R622. A MEMW between the advancing TICK that refreshed the shadow and the rendering TICK does not change the
Text80 line that is drawn, where neither of the two rendering TICKs is refused (R506: P_UNSUPPORTED may look at the video
memory, log 11). -/
def Obligations.Text80LineIgnoresLateMemWrites : Prop :=
  ∀ (s : State) (d : Device) (addr : BitVec 20) (v : Byte), s.device = some d → d.raster.half = .blank →
    Renders s.params d → Renders s.params { d with vram := Memory.write d.vram (addr.toNat % 0x4000) v } →
    d.regs.mode.getLsbD 0 = true →
    ∃ t t' px, exec .tick s = .next t ∧ execSeq [.memw addr v, .tick] s = .next t' ∧
      t.events = s.events ++ [.line d.raster.displayLine px d.regs.mode] ∧
      t'.events = s.events ++ [.waitCharge Config.memWait, .line d.raster.displayLine px d.regs.mode]

/-! ### The renderer, the mapper and the cursors -/

/-- R320. The variant decode: bit 0, then bit 1, then bit 4, for every mode value. -/
def Obligations.VariantDecodeFollowsModeBits : Prop :=
  ∀ mode : Byte,
    (variantOf mode = .text80 ↔ mode.getLsbD 0 = true) ∧
    (variantOf mode = .text40 ↔ mode.getLsbD 0 = false ∧ mode.getLsbD 1 = false) ∧
    (variantOf mode = .graphics320 ↔ mode.getLsbD 0 = false ∧ mode.getLsbD 1 = true ∧ mode.getLsbD 4 = false) ∧
    (variantOf mode = .graphics640 ↔ mode.getLsbD 0 = false ∧ mode.getLsbD 1 = true ∧ mode.getLsbD 4 = true)

/-- R325, R326, R329, R331. A text line shows column `b` of cell `i` at pixel `8i + b` in Text80, from the shadow, and at
pixels `16i + 2b` and `16i + 2b + 1` in Text40, from the video memory at the wrapped cell address. -/
def Obligations.TextLinesShowEachGlyphColumn : Prop :=
  ∀ (p : Params) (d : Device) (b : Fin 8),
    (variant d.regs = .text80 → ∀ (i : Fin 80) (chr attr : Byte),
      d.raster.shadow[2 * i.val]? = some chr → d.raster.shadow[2 * i.val + 1]? = some attr →
      (renderLine p d)[8 * i.val + b.val]? = some (textPixel p d i { chr := chr, attr := attr } b)) ∧
    (variant d.regs = .text40 → ∀ i : Fin 40,
      let a := 2 * (d.raster.memAddr.toNat + i.val)
      let c := textPixel p d i { chr := d.vramAt (a % 0x4000), attr := d.vramAt ((a + 1) % 0x4000) } b
      (renderLine p d)[16 * i.val + 2 * b.val]? = some c ∧ (renderLine p d)[16 * i.val + 2 * b.val + 1]? = some c)

/-- R324, R327, R328, R330, R417, R43. The colour of a glyph column: the mapped foreground where the glyph row has the bit (all of
the last row under underline emulation when the attribute's low 3 bits are 1), else the background, inverted on the
text-cursor cell; underline emulation and the font bank are bits of ext[0x66], the interlaced height code a field of
ext[0x65] (the text cursor is what the spec marks as general knowledge: log 36). -/
def Obligations.TextPixelUsesGlyphUnderlineAndCursor : Prop :=
  ∀ (p : Params) (d : Device) (i : Nat) (chr attr : Byte) (b : Fin 8),
    let interlaced : Bool := p.interlaced[d.regs.ext[0x65].toNat / 2 ^ p.resHLsb.val % 4]'(Nat.mod_lt _ (by decide))
    let es : Nat := if interlaced = true then (2 * d.raster.scanline.toNat + d.frame.oddEven.toNat) % 32
      else d.raster.scanline.toNat
    let cursor := (d.raster.memAddr.toNat + i) % 0x4000 =
        (d.regs.crtc[14].toNat * 256 + d.regs.crtc[15].toNat) % 0x4000 ∧
      d.raster.con = true ∧ d.raster.cursorBlinkOn = true
    let lit := (d.regs.ext[0x66].getLsbD p.ulBit = true ∧ attr.toNat % 8 = 1 ∧ es % 8 = 7) ∨
      (fontByte p chr (d.regs.ext[0x66].getLsbD p.fontBankBit) (BitVec.ofNat 3 es)).getLsbD (7 - b.val) = true
    (cursor → textPixel p d i { chr := chr, attr := attr } b =
      (if lit then (attrMap p d attr true).1 else (attrMap p d attr true).2) ^^^ 0xF) ∧
    (¬ cursor → textPixel p d i { chr := chr, attr := attr } b =
      if lit then (attrMap p d attr false).1 else (attrMap p d attr false).2)

/-- R324, R335, R336, R337. A Graphics320 line shows logical pixel `q` of word `w` at two adjacent pixels, its colour by the two
bits of the bank's word and the colour set of `colorSelect` and `mode` (the bank interleave and the colour families are what
the spec marks as general knowledge: logs 25, 28). -/
def Obligations.Graphics320LineShowsTwoBitPixels : Prop :=
  ∀ (p : Params) (d : Device) (w : Fin 40) (q : Fin 8), variant d.regs = .graphics320 →
    let interlaced : Bool := p.interlaced[d.regs.ext[0x65].toNat / 2 ^ p.resHLsb.val % 4]'(Nat.mod_lt _ (by decide))
    let es : Nat := if interlaced = true then (2 * d.raster.scanline.toNat + d.frame.oddEven.toNat) % 32
      else d.raster.scanline.toNat
    let a := (2 * (d.raster.memAddr.toNat + w.val)) % 0x2000 + 0x2000 * (es % 2)
    let dat := (d.vramAt a).toNat * 256 + (d.vramAt (a + 1)).toNat
    let k := dat / 4 ^ (7 - q.val) % 4
    let intensity : Nat := if d.regs.colorSelect.getLsbD 4 = true then 8 else 0
    let colour : Nat :=
      if k = 0 then d.regs.colorSelect.toNat % 16
      else if d.regs.mode.getLsbD 2 = true then [0, 3, 4, 7].getD k 0 + intensity
      else if d.regs.colorSelect.getLsbD 5 = true then [0, 3, 5, 7].getD k 0 + intensity
      else [0, 2, 4, 6].getD k 0 + intensity
    (renderLine p d)[16 * w.val + 2 * q.val]? = some (BitVec.ofNat 4 colour) ∧
    (renderLine p d)[16 * w.val + 2 * q.val + 1]? = some (BitVec.ofNat 4 colour)

/-- R324, R335, R338. A Graphics640 line shows pixel `q` of word `w` as `colorSelect[3:0]` where the word has the bit, else 0
(the bank interleave is what the spec marks as general knowledge: log 25). -/
def Obligations.Graphics640LineShowsOneBitPixels : Prop :=
  ∀ (p : Params) (d : Device) (w : Fin 40) (q : Fin 16), variant d.regs = .graphics640 →
    let interlaced : Bool := p.interlaced[d.regs.ext[0x65].toNat / 2 ^ p.resHLsb.val % 4]'(Nat.mod_lt _ (by decide))
    let es : Nat := if interlaced = true then (2 * d.raster.scanline.toNat + d.frame.oddEven.toNat) % 32
      else d.raster.scanline.toNat
    let a := (2 * (d.raster.memAddr.toNat + w.val)) % 0x2000 + 0x2000 * (es % 2)
    let dat := (d.vramAt a).toNat * 256 + (d.vramAt (a + 1)).toNat
    (renderLine p d)[16 * w.val + q.val]? = some (BitVec.ofNat 4
      (if dat / 2 ^ (15 - q.val) % 2 = 1 then d.regs.colorSelect.toNat % 16 else 0))

/-- R339. A graphics line does not depend on ext[0x66], crtc[10..11], crtc[14..15], `con`, `cursorBlinkOn` or the shadow. -/
def Obligations.GraphicsLinesIgnoreTextState : Prop :=
  ∀ (p : Params) (d : Device) (flags r10 r11 r14 r15 : Byte) (con blink : Bool) (shadow : Vector Byte 160),
    (variant d.regs).isText = false →
    renderLine p { d with
      regs := { d.regs with
        ext := d.regs.ext.set 0x66 flags,
        crtc := (((d.regs.crtc.set 10 r10).set 11 r11).set 14 r14).set 15 r15 },
      raster := { d.raster with con := con, cursorBlinkOn := blink, shadow := shadow } } = renderLine p d

/-- R370, R371, R372. With the mapping flag clear, an attribute maps by CGA: its background is bits 6:4, its foreground bits
3:0, or the background where the cell blinks and is not the text-cursor cell. -/
def Obligations.CgaMapFollowsTheAttribute : Prop :=
  ∀ (p : Params) (d : Device) (attr : Byte) (dc : Bool), d.regs.ext[0x66].getLsbD p.monoBit = false →
    let blinkAct := d.regs.mode.getLsbD 5 = true ∧ d.frame.blinkCounter.getLsbD 3 = true
    (attrMap p d attr dc).2.toNat = attr.toNat / 16 % 8 ∧
    (attrMap p d attr dc).1.toNat =
      if blinkAct ∧ 0x80 ≤ attr.toNat ∧ dc = false then attr.toNat / 16 % 8 else attr.toNat % 16

/-- R370, R371, R376, R377, R378. With the mapping flag set, an attribute maps by the monochrome table, whatever the
text cursor (most of the table is what the spec marks as general knowledge: log 39). -/
def Obligations.MonoMapFollowsTheTable : Prop :=
  ∀ (p : Params) (d : Device) (attr : Byte) (dc : Bool), d.regs.ext[0x66].getLsbD p.monoBit = true →
    let blinkAct := d.regs.mode.getLsbD 5 = true ∧ d.frame.blinkCounter.getLsbD 3 = true
    attrMap p d attr dc =
      if blinkAct ∧ 0x80 ≤ attr.toNat then
        (if attr.toNat % 128 = 0x70 ∨ attr.toNat % 128 = 0x78 then (0xF, 0xF) else (0x0, 0x0))
      else if attr.toNat % 128 = 0x70 then (0x0, 0xF)
      else if attr.toNat % 128 = 0x78 then (0x7, 0xF)
      else if attr.toNat % 128 = 0x00 ∨ attr.toNat % 128 = 0x08 then (0x0, 0x0)
      else if attr.toNat / 8 % 2 = 1 then (0xF, 0x0) else (0x7, 0x0)

/-- R380, R381, R382. Under the reference palette format (log 9), entry `k` scales the three 3-bit fields of its register
pair: `c * 255 / 7`, truncating. -/
def Obligations.PaletteEntryScalesTheThreeFields : Prop :=
  ∀ (p : Params) (c : Regs) (k : Fin 16) (b0 b1 : Byte), p.palFmt = Params.reference.palFmt →
    c.ext[0x40 + 2 * k.val]? = some b0 → c.ext[0x41 + 2 * k.val]? = some b1 →
    (palEntry p c k).r.toNat = b0.toNat % 8 * 255 / 7 ∧
    (palEntry p c k).g.toNat = b1.toNat / 16 % 8 * 255 / 7 ∧
    (palEntry p c k).b.toNat = b1.toNat % 8 * 255 / 7

/-- R409, R401, R402, R41. The overlay is the identity outside the cursor's 16-line span, when blink-suppressed, and when neither
apply-AND nor apply-XOR of ext[0x64] is set (the spec marks R409 as derived from R407). -/
def Obligations.CursorOverlayIsIdentityOutsideItsSpan : Prop :=
  ∀ (p : Params) (d : Device) (ln : Line),
    let rh : Nat := if d.regs.mode.getLsbD 0 = true ∨ d.regs.mode.getLsbD 1 = false then 8 else 2
    let y : Int := d.raster.vCounter.toNat * rh + d.raster.scanline.toNat
    let r : Int := y + 16 - d.regs.ext[0x63].toNat
    let flags := d.regs.ext[0x64]
    (r < 0 ∨ 15 < r ∨ (flags.getLsbD p.curShowBit = false ∧ d.frame.blinkCounter.getLsbD 3 = false) ∨
      (flags.getLsbD p.curAndBit = false ∧ flags.getLsbD p.curXorBit = false)) →
    cursorOverlay p d ln = ln

/-- R401, R404, R405, R406, R35, R36, R38, R41, R45. On a line inside the span, half-column `hc` of the cursor lies on pixel
`2 * (cursorX - 16) + hc` and applies its mask bits there, AND before XOR; a pixel on no half-column is unchanged. Written out:
the flags are bits of ext[0x64], cursorX is ext[0x60..0x61], the mask rows are the byte pairs at ext[2r] and ext[0x20 + 2r],
and the colours are the nibbles of ext[0x68], exchanged where `P_CUR_COL_SWAP` says so. -/
def Obligations.CursorOverlayAppliesAndThenXor : Prop :=
  ∀ (p : Params) (d : Device) (ln : Line) (r : Fin 16) (x : Fin 640),
    let rh : Nat := if d.regs.mode.getLsbD 0 = true ∨ d.regs.mode.getLsbD 1 = false then 8 else 2
    let flags := d.regs.ext[0x64]
    let cursorX : Nat := d.regs.ext[0x60].toNat * 256 + d.regs.ext[0x61].toNat
    let cursorLeft : Int := 2 * ((cursorX : Int) - 16)
    let andMask : Nat := (d.regs.ext[2 * r.val]'(by omega)).toNat * 256 + (d.regs.ext[2 * r.val + 1]'(by omega)).toNat
    let xorMask : Nat :=
      (d.regs.ext[0x20 + 2 * r.val]'(by omega)).toNat * 256 + (d.regs.ext[0x21 + 2 * r.val]'(by omega)).toNat
    let high : Nib := BitVec.ofNat 4 (d.regs.ext[0x68].toNat / 16)
    let low : Nib := BitVec.ofNat 4 (d.regs.ext[0x68].toNat % 16)
    let andCol := if p.curColSwap = true then low else high
    let xorCol := if p.curColSwap = true then high else low
    (flags.getLsbD p.curShowBit = true ∨ d.frame.blinkCounter.getLsbD 3 = true) →
    d.raster.vCounter.toNat * rh + d.raster.scanline.toNat + 16 = d.regs.ext[0x63].toNat + r.val →
    (∀ hc : Fin 32, (x.val : Int) = cursorLeft + hc.val →
      (cursorOverlay p d ln)[x] =
        (let j := hc.val / 2
         let px := if flags.getLsbD p.curAndBit = true ∧ andMask.testBit (15 - j) = true then ln[x] &&& andCol else ln[x]
         if flags.getLsbD p.curXorBit = true ∧ xorMask.testBit (15 - j) = true then px ^^^ xorCol else px)) ∧
    ((∀ hc : Fin 32, (x.val : Int) ≠ cursorLeft + hc.val) → (cursorOverlay p d ln)[x] = ln[x])

/-- R431, R432, R433, R434, R435. The conversion of a line by display type: the programmable palette for TRUECOLOR, the composite
encoder's inputs for COMPOSITE, the standard palettes of the parameters for RGB and RGB_NO_BROWN, and for the monochrome types
a host table that `monoContrast` selects (a free value: log 16). -/
def Obligations.HostLineFollowsTheDisplayType : Prop :=
  ∀ (p : Params) (d : Device) (ln : Line),
    (d.config.displayType = .trueColor → ∃ px, hostLine p d ln = .colours px ∧
      ∀ x : Fin 640, d.palette[ln[x].toNat]? = some px[x]) ∧
    (d.config.displayType = .composite →
      hostLine p d ln = .composite d.regs.mode ln d.config.compositeVariant) ∧
    (d.config.displayType ≠ .trueColor → d.config.displayType ≠ .composite → ∃ px, hostLine p d ln = .colours px ∧
      (d.config.displayType = .rgb → ∀ x : Fin 640, p.stdPalRgb[ln[x].toNat]? = some px[x]) ∧
      (d.config.displayType = .rgbNoBrown → ∀ x : Fin 640, p.stdPalNoBrown[ln[x].toNat]? = some px[x]) ∧
      (d.config.displayType ≠ .rgb → d.config.displayType ≠ .rgbNoBrown →
        ∀ x : Fin 640, px[x] = Config.monoPal d.config.displayType d.config.monoContrast ln[x]))

/-! ### The whole machine -/

/-- R500, R501. Every operation answers a next state from every state: it never faults and never stops, it appends to the
events and leaves the parameters, the sequence and the operands of ATTACH alone. That the words R506 and R507 refuse, which
R501 excepts, also answer a next state, with the mark set, is the model's (log 5). -/
def Obligations.EveryOperationAnswersANextState : Prop :=
  ∀ (i : Instr) (s : State), ∃ t out, exec i s = .next t ∧ t.events = s.events ++ out ∧
    t.params = s.params ∧ t.pending = s.pending ∧ t.attachIn = s.attachIn

/-- R72, R600. The refusal mark is never cleared but by a new ATTACH that creates an instance. That a failed ATTACH keeps the mark
is the model's (log 7). -/
def Obligations.RefusalMarkIsSticky : Prop :=
  ∀ (i : Instr) (s t : State), s.refused = true → exec i s = .next t →
    t.refused = true ∨ (i = .attach ∧ s.attachIn.allocOk = true ∧ t.refused = false)

/-- R70. Bus transactions never move the raster position, nor the frame bookkeeping, nor the configuration. -/
def Obligations.BusTransactionsNeverMoveTheRaster : Prop :=
  ∀ (i : Instr) (s : State) (d : Device), s.device = some d → isBusOperation i = true →
    ∃ t d', exec i s = .next t ∧ t.device = some d' ∧ SameSequencer d d' ∧ t.refused = s.refused

/-- R103, R213. No operation but MEMW and the lifecycle operations changes a byte of the video memory. -/
def Obligations.OnlyMemWriteChangesVideoMemory : Prop :=
  ∀ (i : Instr) (s : State) (d : Device), s.device = some d → i ≠ .attach → i ≠ .detach →
    (∀ addr v, i ≠ .memw addr v) →
    ∃ t d', exec i s = .next t ∧ t.device = some d' ∧ ∀ a, d'.vramAt a = d.vramAt a

/-- R383, R32. Every step keeps the invariant: the video memory in its canonical form, the palette consistent with its
register pairs, and the masked-off CRTC bits 0. -/
def Obligations.EveryStepKeepsTheInvariant : Prop :=
  ∀ s t : State, s.Inv → step s = .next t → t.Inv

/-- R74. The invariant holds after reset. -/
def Obligations.ResetMeetsTheInvariant : Prop := State.reset.Inv

/-- R260, R262, R270-R275. Within a frame of the current geometry, a TICK keeps the raster in the frame: a rendering TICK
leaves the frame line, and an advancing TICK moves it by exactly one line modulo TOTAL = END + ADJ of the lookup entry. -/
def Obligations.AdvancingTickMovesOneFrameLine : Prop :=
  ∀ (s : State) (d : Device), s.device = some d →
    let e : VertEntry := s.params.vtab[d.regs.ext[0x65].toNat / 2 ^ s.params.resHLsb.val % 4]'(Nat.mod_lt _ (by decide))
    e.wf = true → InFrame s.params d.regs d.raster → (d.raster.half = .visible ∨ Renders s.params d) →
    ∃ t d', exec .tick s = .next t ∧ t.device = some d' ∧ InFrame s.params d'.regs d'.raster ∧
      frameLine s.params d'.regs d'.raster =
        if d.raster.half = .visible then (frameLine s.params d.regs d.raster + 1) % (e.endLine + e.adj.toNat)
        else frameLine s.params d.regs d.raster

/-- R262, which the spec marks as derived from R260, R261, R270, R272, R273 and R275. With no register write, `2 * n` TICKs move
the raster by exactly `n` frame lines modulo TOTAL, so a frame takes exactly TOTAL = END + ADJ advancing TICKs, in every
variant and under every lookup (the last premise: no rendering TICK of the run meets an unsupported configuration, R506). -/
def Obligations.FrameTakesExactlyTotalLines : Prop :=
  ∀ (n : Nat) (s : State) (d : Device), s.device = some d →
    let e : VertEntry := s.params.vtab[d.regs.ext[0x65].toNat / 2 ^ s.params.resHLsb.val % 4]'(Nat.mod_lt _ (by decide))
    e.wf = true → InFrame s.params d.regs d.raster → d.raster.half = .blank →
    (∀ m t d', m < n → execSeq (pseudoTicks (2 * m)) s = .next t → t.device = some d' → Renders s.params d') →
    ∃ t d', execSeq (pseudoTicks (2 * n)) s = .next t ∧ t.device = some d' ∧ SameStores d d' ∧
      d'.raster.half = .blank ∧ InFrame s.params d'.regs d'.raster ∧
      frameLine s.params d'.regs d'.raster =
        (frameLine s.params d.regs d.raster + n) % (e.endLine + e.adj.toNat)

/-- R262, which the spec marks as derived, R273, R275. With VSync not above the last displayed line, an advancing TICK keeps the
display on exactly on the frame's first VIS lines; at the step from the frame's last line to its top this needs no premise on
the display, so it holds from the first frame top on. -/
def Obligations.AdvancingTickKeepsDisplayOnExactlyVisLines : Prop :=
  ∀ (s : State) (d : Device), s.device = some d → d.raster.half = .visible →
    let e : VertEntry := s.params.vtab[d.regs.ext[0x65].toNat / 2 ^ s.params.resHLsb.val % 4]'(Nat.mod_lt _ (by decide))
    e.wf = true → 0 < e.vis → e.vis ≤ e.vsync → InFrame s.params d.regs d.raster →
    (d.raster.dispOn = decide (frameLine s.params d.regs d.raster < e.vis) ∨
      frameLine s.params d.regs d.raster + 1 = e.endLine + e.adj.toNat) →
    ∃ t d', exec .tick s = .next t ∧ t.device = some d' ∧
      d'.raster.dispOn = decide (frameLine s.params d'.regs d'.raster < e.vis)
end

