-- ==== Sys2Proof/Laws/Encoding.lean ====
section
/-! SUPPORT. The fields of an encoded word, read back by the decoder's field functions. -/

namespace Sys2Proof

@[simp] theorem wordKind_encodeIow (port : BitVec 16) (v : Byte) : wordKind (encodeIow port v) = 0 := by
  unfold wordKind encodeIow
  ext j hj
  interval_cases j <;> simp

@[simp] theorem wordPort_encodeIow (port : BitVec 16) (v : Byte) : wordPort (encodeIow port v) = port := by
  unfold wordPort encodeIow
  ext j hj
  interval_cases j <;> simp

@[simp] theorem wordData_encodeIow (port : BitVec 16) (v : Byte) : wordData (encodeIow port v) = v := by
  unfold wordData encodeIow
  ext j hj
  interval_cases j <;> simp

@[simp] theorem wordKind_encodeIor (port : BitVec 16) : wordKind (encodeIor port) = 1 := by
  unfold wordKind encodeIor
  ext j hj
  interval_cases j <;> simp

@[simp] theorem wordPort_encodeIor (port : BitVec 16) : wordPort (encodeIor port) = port := by
  unfold wordPort encodeIor
  ext j hj
  interval_cases j <;> simp

@[simp] theorem wordKind_encodeMemw (addr : BitVec 20) (v : Byte) : wordKind (encodeMemw addr v) = 2 := by
  unfold wordKind encodeMemw
  ext j hj
  interval_cases j <;> simp

@[simp] theorem wordAddr_encodeMemw (addr : BitVec 20) (v : Byte) : wordAddr (encodeMemw addr v) = addr := by
  unfold wordAddr encodeMemw
  ext j hj
  interval_cases j <;> simp

@[simp] theorem wordData_encodeMemw (addr : BitVec 20) (v : Byte) : wordData (encodeMemw addr v) = v := by
  unfold wordData encodeMemw
  ext j hj
  interval_cases j <;> simp

@[simp] theorem wordKind_encodeMemr (addr : BitVec 20) : wordKind (encodeMemr addr) = 3 := by
  unfold wordKind encodeMemr
  ext j hj
  interval_cases j <;> simp

@[simp] theorem wordAddr_encodeMemr (addr : BitVec 20) : wordAddr (encodeMemr addr) = addr := by
  unfold wordAddr encodeMemr
  ext j hj
  interval_cases j <;> simp

/-- The kind of a reserved word 8-15 is 8 plus its three low bits. -/
theorem wordKind_reserved8to15 (low : BitVec 3) : wordKind (encode (.reserved8to15 low)) = 8 ||| low.setWidth 4 := by
  revert low
  decide

end Sys2Proof
end

