-- ==== Sys2Proof/Laws/State.lean ====
section
/-! SUPPORT. One lemma per field for each update of the state, so that no later proof unfolds one. -/

namespace Sys2Proof.Machine

section
variable (s : State) (d : Device) (out : List Event) (r : RefuseReason) (op : HostOp) (rest : List HostOp) (w : Word)

@[simp] theorem State.commit_params : (s.commit d out).params = s.params := rfl
@[simp] theorem State.commit_pending : (s.commit d out).pending = s.pending := rfl
@[simp] theorem State.commit_attachIn : (s.commit d out).attachIn = s.attachIn := rfl
@[simp] theorem State.commit_device : (s.commit d out).device = some d := rfl
@[simp] theorem State.commit_refused : (s.commit d out).refused = s.refused := rfl
@[simp] theorem State.commit_outcome : (s.commit d out).outcome = .done := rfl
@[simp] theorem State.commit_events : (s.commit d out).events = s.events ++ out := rfl
@[simp] theorem State.commit_draws : (s.commit d out).draws = s.draws := rfl

@[simp] theorem State.refuse_params : (s.refuse r).params = s.params := rfl
@[simp] theorem State.refuse_pending : (s.refuse r).pending = s.pending := rfl
@[simp] theorem State.refuse_attachIn : (s.refuse r).attachIn = s.attachIn := rfl
@[simp] theorem State.refuse_device : (s.refuse r).device = s.device := rfl
@[simp] theorem State.refuse_refused : (s.refuse r).refused = true := rfl
@[simp] theorem State.refuse_outcome : (s.refuse r).outcome = .refused r := rfl
@[simp] theorem State.refuse_events : (s.refuse r).events = s.events := rfl
@[simp] theorem State.refuse_draws : (s.refuse r).draws = s.draws := rfl

@[simp] theorem State.accept_params : (s.accept op rest).params = s.params := rfl
@[simp] theorem State.accept_pending : (s.accept op rest).pending = rest := rfl
@[simp] theorem State.accept_attachIn : (s.accept op rest).attachIn = op.attach.getD s.attachIn := rfl
@[simp] theorem State.accept_device : (s.accept op rest).device = s.device := rfl
@[simp] theorem State.accept_refused : (s.accept op rest).refused = s.refused := rfl
@[simp] theorem State.accept_outcome : (s.accept op rest).outcome = s.outcome := rfl
@[simp] theorem State.accept_events : (s.accept op rest).events = s.events := rfl
@[simp] theorem State.accept_draws : (s.accept op rest).draws = s.draws := rfl

@[simp] theorem State.issue_params : (s.issue w).params = s.params := rfl
@[simp] theorem State.issue_pending : (s.issue w).pending = { word := w, attach := none } :: s.pending := rfl
@[simp] theorem State.issue_attachIn : (s.issue w).attachIn = s.attachIn := rfl
@[simp] theorem State.issue_device : (s.issue w).device = s.device := rfl
@[simp] theorem State.issue_refused : (s.issue w).refused = s.refused := rfl
@[simp] theorem State.issue_outcome : (s.issue w).outcome = s.outcome := rfl
@[simp] theorem State.issue_events : (s.issue w).events = s.events := rfl
@[simp] theorem State.issue_draws : (s.issue w).draws = s.draws := rfl

@[simp] theorem State.drawn_params : s.drawn.params = s.params := by unfold State.drawn; split <;> rfl
@[simp] theorem State.drawn_pending : s.drawn.pending = s.pending := by unfold State.drawn; split <;> rfl
@[simp] theorem State.drawn_attachIn : s.drawn.attachIn = s.attachIn := by unfold State.drawn; split <;> rfl
@[simp] theorem State.drawn_device : s.drawn.device = s.device := by unfold State.drawn; split <;> rfl
@[simp] theorem State.drawn_refused : s.drawn.refused = s.refused := by unfold State.drawn; split <;> rfl
@[simp] theorem State.drawn_outcome : s.drawn.outcome = s.outcome := by unfold State.drawn; split <;> rfl
@[simp] theorem State.drawn_events : s.drawn.events = s.events := by unfold State.drawn; split <;> rfl

/-- With an instance, exactly one draw is taken. -/
theorem State.drawn_draws {s : State} {d : Device} (h : s.device = some d) : s.drawn.draws = s.draws + 1 := by
  simp [State.drawn, h]

/-- Without one, none is. -/
theorem State.drawn_none {s : State} (h : s.device = none) : s.drawn = s := by simp [State.drawn, h]

end

/-! ### Updates of an instance's raster: what each vertical action leaves alone -/

section
variable (p : Params) (c : Regs) (f : FrameState) (r : Raster) (d : Device) (m : List Host.Cell)

@[simp] theorem advanceMemAddr_regs : (advanceMemAddr d).regs = d.regs := rfl
@[simp] theorem advanceMemAddr_palette : (advanceMemAddr d).palette = d.palette := rfl
@[simp] theorem advanceMemAddr_vram : (advanceMemAddr d).vram = d.vram := rfl
@[simp] theorem advanceMemAddr_config : (advanceMemAddr d).config = d.config := rfl
@[simp] theorem advanceMemAddr_frame : (advanceMemAddr d).frame = d.frame := rfl

/-- The text-cursor end check writes `con` only. -/
theorem textCursorEndCheck_eq :
    textCursorEndCheck p c r = { r with con := r.con && !meetsLimit p c r (cursorEnd c) } := by
  unfold textCursorEndCheck
  split <;> simp_all

/-- The text-cursor start check writes `con` only. -/
theorem textCursorStartCheck_eq :
    textCursorStartCheck p c r = { r with con := r.con || meetsLimit p c r (cursorStart c) } := by
  unfold textCursorStartCheck
  split <;> simp_all

/-- The shadow refresh writes `shadow` only. -/
theorem shadowRefresh_eq :
    shadowRefresh c m r = { r with
      shadow := if r.dispOn && decide (variant c = .text80) then
          tabulate 160 fun j => Memory.read m ((2 * r.memAddr.toNat + j) % 0x4000)
        else r.shadow } := by
  unfold shadowRefresh
  split <;> simp_all

end

end Sys2Proof.Machine
end

