-- ==== Sys2Proof/Laws/Tables.lean ====
section
/-! SUPPORT. Entries of tabulated vectors and of lines. -/

namespace Sys2Proof.Machine

theorem listFrom_getElem {α : Type} (f : Nat → α) (n : Nat) :
    ∀ (start i : Nat) (h : i < (listFrom f n start).length), (listFrom f n start)[i] = f (start + i) := by
  induction n with
  | zero => intro start i h; simp [listFrom] at h
  | succ n ih =>
    intro start i h
    cases i with
    | zero => rfl
    | succ i => simp only [listFrom, List.getElem_cons_succ, ih]; congr 1; omega

@[simp] theorem tabulate_getElem {α : Type} (n : Nat) (f : Nat → α) (i : Nat) (h : i < n) : (tabulate n f)[i] = f i := by
  simp [tabulate, listFrom_getElem]

@[simp] theorem tabulate_getElem_option {α : Type} (n : Nat) (f : Nat → α) (i : Nat) (h : i < n) :
    (tabulate n f)[i]? = some (f i) := by
  simp [h]

@[simp] theorem mapPixels_getElem (f : Nat → Nib → Nib) (ln : Line) (x : Nat) (h : x < 640) :
    (mapPixels f ln)[x] = f x ln[x] := by
  simp [mapPixels, h]

@[simp] theorem mapPixels_getElem_option (f : Nat → Nib → Nib) (ln : Line) (x : Nat) (h : x < 640) :
    (mapPixels f ln)[x]? = some (f x ln[x]) := by
  simp [h]

/-- Two vectors with the same entries are equal. -/
theorem vector_eq_of_entries {α : Type} {n : Nat} {v w : Vector α n} (h : ∀ i : Fin n, v[i] = w[i]) : v = w :=
  Vector.ext fun i hi => h ⟨i, hi⟩

theorem extAt_of_lt (c : Regs) (i : Nat) (h : i < 106) : c.extAt i = c.ext[i] := by
  simp [Regs.extAt, h]

end Sys2Proof.Machine
end

