-- ==== Sys2Proof/Laws/Exec.lean ====
section
/-! SUPPORT. What each shared operation answers, said once: the operations of an instance, sequences of operations, and the
two half-phases of a TICK. -/

namespace Sys2Proof.Machine

/-! ### Operations of an instance -/

theorem onDevice_some {s : State} {d : Device} (h : s.device = some d) (f : Device → OpResult) :
    s.onDevice f = .next (s.finish (f d)) := by
  simp [State.onDevice, h]

theorem onDevice_none {s : State} (h : s.device = none) (f : Device → OpResult) :
    s.onDevice f = .next (s.refuse .noInstance) := by
  simp [State.onDevice, h]

theorem onRegs_some {s : State} {d : Device} (h : s.device = some d) (f : Regs → Regs) :
    s.onRegs f = .next (s.commit { d with regs := f d.regs } []) := by
  rw [State.onRegs, onDevice_some h]; rfl

theorem onRead_some {s : State} {d : Device} (h : s.device = some d) (out : Device → List Event) :
    s.onRead out = .next (s.commit d (out d)) := by
  rw [State.onRead, onDevice_some h]; rfl

theorem onRegs_none {s : State} (h : s.device = none) (f : Regs → Regs) :
    s.onRegs f = .next (s.refuse .noInstance) := onDevice_none h _

theorem onRead_none {s : State} (h : s.device = none) (out : Device → List Event) :
    s.onRead out = .next (s.refuse .noInstance) := onDevice_none h _

/-- An operation of the instance always answers a next state. -/
theorem onDevice_next (s : State) (f : Device → OpResult) : ∃ t, s.onDevice f = .next t := by
  unfold State.onDevice
  split <;> exact ⟨_, rfl⟩

/-- What any operation of the instance leaves alone: the parameters, the sequence, the operands of ATTACH; events are only
appended. -/
theorem onDevice_keeps (s : State) (f : Device → OpResult) :
    ∃ t out, s.onDevice f = .next t ∧ t.events = s.events ++ out ∧ t.params = s.params ∧ t.pending = s.pending ∧
      t.attachIn = s.attachIn := by
  cases h : s.device with
  | none => exact ⟨_, [], onDevice_none h f, by simp⟩
  | some d =>
    rw [onDevice_some h]
    cases f d with
    | done d out => exact ⟨_, out, rfl, rfl, rfl, rfl, rfl⟩
    | refuse r => exact ⟨_, [], rfl, by simp [State.finish]⟩

/-- A set refusal mark stays set under any operation of the instance. -/
theorem onDevice_refused {s t : State} (h : s.refused = true) {f : Device → OpResult} (hf : s.onDevice f = .next t) :
    t.refused = true := by
  cases hd : s.device with
  | none => rw [onDevice_none hd] at hf; cases hf; rfl
  | some d =>
    rw [onDevice_some hd] at hf; cases hf
    cases f d with
    | done d out => exact h
    | refuse r => rfl

/-- The invariant is kept by an operation of the instance whose new instance has it. -/
theorem onDevice_inv {s t : State} {f : Device → OpResult} (h : s.Inv)
    (hf : ∀ d d' out, s.device = some d → f d = .done d' out → d'.Inv s.params) (hx : s.onDevice f = .next t) : t.Inv := by
  cases hd : s.device with
  | none => rw [onDevice_none hd] at hx; cases hx; intro d hd'; simp [hd] at hd'
  | some d =>
    rw [onDevice_some hd] at hx; cases hx
    cases he : f d with
    | done d' out => intro d2 hd2; cases hd2; exact hf d d' out hd he
    | refuse r => exact h

/-- An operation that changes nothing and emits nothing: only the outcome is written. -/
theorem commit_same {s : State} {d : Device} (h : s.device = some d) : s.commit d [] = { s with outcome := .done } := by
  simp [State.commit, ← h]

/-! ### Sequences -/

@[simp] theorem execSeq_nil (s : State) : execSeq [] s = .next s := rfl

theorem execSeq_cons {i : Instr} {s t : State} (h : exec i s = .next t) (rest : List Instr) :
    execSeq (i :: rest) s = execSeq rest t := by
  simp [execSeq, h]

theorem execSeq_append {is js : List Instr} {s t : State} (h : execSeq is s = .next t) :
    execSeq (is ++ js) s = execSeq js t := by
  induction is generalizing s with
  | nil => cases h; rfl
  | cons i is ih =>
    simp only [execSeq, List.cons_append] at h ⊢
    split at h
    · exact ih h
    · cases h
    · cases h

/-! ### TICK -/

/-- The instance as an advancing TICK counts the VSync pulse down. -/
def countedDevice (p : Params) (d : Device) : Device :=
  { d with
    raster := { d.raster with
      half := .blank
      vsyncRem := if d.raster.vsyncRem = 0 then 0 else d.raster.vsyncRem - 1 }
    frame := if d.raster.vsyncRem = 1 then finalizedFrame p d.regs d.frame else d.frame }

/-- The countdown in numbers (R271). -/
theorem countedDevice_vsyncRem (p : Params) (d : Device) :
    (countedDevice p d).raster.vsyncRem.toNat = d.raster.vsyncRem.toNat - 1 := by
  by_cases h : d.raster.vsyncRem = 0
  · simp [countedDevice, h]
  · have : (countedDevice p d).raster.vsyncRem = d.raster.vsyncRem - 1 := if_neg h
    bv_omega

/-- The events of an advancing TICK: a FrameDone exactly when the pulse ends. -/
def countedEvents (p : Params) (d : Device) : List Event :=
  if d.raster.vsyncRem = 1 then [frameDoneEvent p d.regs d.frame] else []

theorem vsyncCountdown_eq (p : Params) (d : Device) :
    vsyncCountdown p { d with raster.half := .blank } = (countedDevice p d, countedEvents p d) := by
  have hiff : d.raster.vsyncRem - 1 = 0 ↔ d.raster.vsyncRem = 1 := by
    constructor <;> intro h <;> bv_omega
  unfold vsyncCountdown countedDevice countedEvents
  by_cases h0 : d.raster.vsyncRem = 0
  · simp only [h0, if_true, show (0 : BitVec 8) ≠ 1 by decide, if_false]
  · by_cases h1 : d.raster.vsyncRem = 1
    · simp only [h1, show (1 : BitVec 8) ≠ 0 by decide, show (1 : BitVec 8) - 1 = 0 by decide, if_true, if_false]
    · simp only [hiff, h0, h1, if_false]

/-- An advancing TICK: the countdown, then the vertical advance of the raster (R270, R271). -/
theorem execTick_visible {s : State} {d : Device} (h : s.device = some d) (hh : d.raster.half = .visible) :
    exec .tick s = .next (s.commit
      { countedDevice s.params d with raster := advanceRaster s.params (countedDevice s.params d) }
      (countedEvents s.params d)) := by
  simp only [exec, execTick, onDevice_some h, tickDevice, hh, enterBlank, vsyncCountdown_eq, State.finish]

/-- A rendering TICK with the display off: one border line (R264, R346). -/
theorem execTick_border {s : State} {d : Device} (h : s.device = some d) (hh : d.raster.half = .blank)
    (hoff : d.raster.dispOn = false) :
    exec .tick s = .next (s.finish
      (emitLine s.params (borderFill d.regs) { d with raster.half := .visible })) := by
  simp only [exec, execTick, onDevice_some h, tickDevice, hh, enterVisible, hoff, Bool.false_eq_true, if_false]

/-- The instance that emits the line of a displayed rendering TICK. -/
def displayedDevice (d : Device) : Device :=
  { d with raster.half := .visible, frame := updateBounds d.raster.displayLine d.frame }

/-- A rendering TICK with the display on: one displayed line (R264). -/
theorem execTick_displayed {s : State} {d : Device} (h : s.device = some d) (hh : d.raster.half = .blank)
    (hon : d.raster.dispOn = true) (hsup : isUnsupported s.params d = false) :
    exec .tick s = .next (s.finish (emitLine s.params (displayedLine s.params (displayedDevice d))
      (advanceMemAddr (displayedDevice d)))) := by
  simp only [exec, execTick, onDevice_some h, tickDevice, hh, enterVisible, hon, hsup, if_true, Bool.false_eq_true,
    if_false, displayedDevice]

/-- What an emission does to the state (R266). -/
theorem finish_emitLine (s : State) (p : Params) (ln : Line) (d : Device) :
    s.finish (emitLine p ln d) = s.commit
      { d with
        raster.displayLine := d.raster.displayLine + 1,
        frame.frameLines := d.frame.frameLines ++ [(d.raster.displayLine, hostLine p d ln)] }
      [.line d.raster.displayLine ln d.regs.mode] := rfl

/-- The line depends neither on the half-phase nor on the observed bounds. -/
theorem displayedLine_displayedDevice (p : Params) (d : Device) :
    displayedLine p (displayedDevice d) = displayedLine p d := rfl

/-! ### The vertical advance -/

/-- The three cases of the vertical advance (R270), said once. -/
theorem verticalAdvance_cases (p : Params) (c : Regs) (f : FrameState) (r : Raster) :
    (r.adjRem ≠ 0 ∧ verticalAdvance p c f r = adjustStep c r) ∨
    (r.adjRem = 0 ∧ r.scanline.toNat = rowHeight c - 1 ∧ verticalAdvance p c f r = rowEnd p c f r) ∨
    (r.adjRem = 0 ∧ r.scanline.toNat ≠ rowHeight c - 1 ∧ verticalAdvance p c f r = nextScanline r) := by
  by_cases h0 : r.adjRem = 0
  · by_cases h1 : r.scanline.toNat = rowHeight c - 1
    · exact .inr (.inl ⟨h0, h1, by rw [verticalAdvance, if_neg (not_not.mpr h0), if_pos h1]⟩)
    · exact .inr (.inr ⟨h0, h1, by rw [verticalAdvance, if_neg (not_not.mpr h0), if_neg h1]⟩)
  · exact .inl ⟨h0, by rw [verticalAdvance, if_pos h0]⟩

/-- The end of a row, said once (R273): each field of the raster after the three tests. -/
theorem rowEnd_eq (p : Params) (c : Regs) (f : FrameState) (r : Raster) :
    rowEnd p c f r =
      let atEnd := r.vCounter.toNat = lastRow p c
      let restart := atEnd ∧ adjustLines p c = 0
      let row := if atEnd then 0 else r.vCounter + 1
      let sync := row.toNat = vsyncRow p c
      { r with
        scanline := 0
        vCounter := row
        memAddr := if restart then startAddr c else r.memAddr
        memAddrBack := if restart then startAddr c else r.memAddr
        adjRem := if atEnd then adjustLines p c else r.adjRem
        dispOn := if sync then false else if restart then true
          else if (r.vCounter + 1).toNat = displayedRows p c then false else r.dispOn
        displayLine := if sync then 0 else r.displayLine
        vsyncRem := if sync then p.vsyncLines else r.vsyncRem
        cursorBlinkOn := if atEnd then !cursorDisabled c && blinkTop f else r.cursorBlinkOn } := by
  unfold rowEnd vsyncStart displayEnd
  by_cases ha : r.vCounter.toNat = lastRow p c
  · by_cases hr : adjustLines p c = 0
    all_goals
      by_cases hd : (r.vCounter + 1).toNat = displayedRows p c
      all_goals
        by_cases hs : (0 : BitVec 7).toNat = vsyncRow p c
        all_goals
          simp only [ha, hr, hd, if_true, if_false, and_true, and_false, lastRowEnd, cursorBlinkLatch, frameTop]
          simp only [hs, if_true, if_false]
  · simp only [ha, if_false, false_and]
    by_cases hd : (r.vCounter + 1).toNat = displayedRows p c
    · rw [if_pos hd, if_pos hd]
      split_ifs <;> rfl
    · rw [if_neg hd, if_neg hd]
      split_ifs <;> rfl

/-- No vertical action reads or writes the text cursor's `con`. -/
theorem verticalAdvance_con (p : Params) (c : Regs) (f : FrameState) (r : Raster) (b : Bool) :
    verticalAdvance p c f { r with con := b } = { verticalAdvance p c f r with con := b } := by
  simp only [verticalAdvance, adjustStep, rowEnd, nextScanline, lastRowEnd, displayEnd, vsyncStart, frameTop,
    cursorBlinkLatch]
  split_ifs <;> rfl

/-- The vertical advance leaves the half-phase and the shadow alone. -/
theorem verticalAdvance_frame (p : Params) (c : Regs) (f : FrameState) (r : Raster) :
    (verticalAdvance p c f r).half = r.half ∧ (verticalAdvance p c f r).shadow = r.shadow ∧
      (verticalAdvance p c f r).con = r.con := by
  simp only [verticalAdvance, adjustStep, rowEnd, nextScanline, lastRowEnd, displayEnd, vsyncStart, frameTop,
    cursorBlinkLatch]
  split_ifs <;> simp

/-- The raster of an advancing TICK: the vertical advance, then `con` and `shadow` (R270). -/
theorem advanceRaster_eq (p : Params) (d : Device) :
    advanceRaster p d =
      { verticalAdvance p d.regs d.frame d.raster with
        con := (d.raster.con && !meetsLimit p d.regs d.raster (cursorEnd d.regs)) ||
          meetsLimit p d.regs (verticalAdvance p d.regs d.frame d.raster) (cursorStart d.regs),
        shadow :=
          if (verticalAdvance p d.regs d.frame d.raster).dispOn && decide (variant d.regs = .text80) then
            tabulate 160 fun j =>
              Memory.read d.vram ((2 * (verticalAdvance p d.regs d.frame d.raster).memAddr.toNat + j) % 0x4000)
          else d.raster.shadow } := by
  simp only [advanceRaster, textCursorEndCheck_eq, verticalAdvance_con, textCursorStartCheck_eq, shadowRefresh_eq]
  rw [(verticalAdvance_frame p d.regs d.frame d.raster).2.1]
  rfl

end Sys2Proof.Machine
end

