-- ==== Sys2Proof/Laws/Memory.lean ====
section
/-! SUPPORT. The video memory: a read after a write, and that a write keeps the canonical form. -/

namespace Sys2Proof.Machine

theorem Memory.wf_nil : Memory.wf [] := ⟨List.Pairwise.nil, by simp⟩

theorem Memory.wf_tail {c : Host.Cell} {m : List Host.Cell} (h : Memory.wf (c :: m)) : Memory.wf m :=
  ⟨(List.pairwise_cons.mp h.1).2, fun x hx => h.2 x (List.mem_cons_of_mem c hx)⟩

/-- An offset below every listed one is not listed. -/
theorem Memory.find_of_all_greater {m : List Host.Cell} {a : Nat} (h : ∀ c ∈ m, a < c.1) : Memory.find m a = none := by
  induction m with
  | nil => rfl
  | cons c m ih =>
    have hc := h c (by simp)
    simp only [Memory.find, show c.1 ≠ a by omega, if_false]
    exact ih fun x hx => h x (List.mem_cons_of_mem c hx)

@[simp] theorem Memory.read_nil (a : Nat) : Memory.read [] a = 0 := rfl

theorem Memory.read_cons (c : Host.Cell) (m : List Host.Cell) (b : Nat) :
    Memory.read (c :: m) b = if c.1 = b then c.2 else Memory.read m b := by
  rw [Memory.read, Memory.find]
  split <;> rfl

theorem Memory.read_of_all_greater {m : List Host.Cell} {a : Nat} (h : ∀ c ∈ m, a < c.1) : Memory.read m a = 0 := by
  rw [Memory.read, Memory.find_of_all_greater h]; rfl

theorem Memory.read_put {m : List Host.Cell} {a : Nat} (v : Byte) (h : ∀ c ∈ m, a < c.1) (b : Nat) :
    Memory.read (Memory.put a v m) b = if a = b then v else Memory.read m b := by
  unfold Memory.put
  split
  · rename_i hv
    split
    · rename_i hab
      subst hab
      rw [Memory.read_of_all_greater h, hv]; rfl
    · rfl
  · exact Memory.read_cons (a, v) m b

/-- A read after a write gives the byte written at its offset and the earlier byte everywhere else. -/
theorem Memory.read_write {m : List Host.Cell} (h : Memory.wf m) (a : Nat) (v : Byte) (b : Nat) :
    Memory.read (Memory.write m a v) b = if a = b then v else Memory.read m b := by
  induction m with
  | nil => exact Memory.read_put v (by simp) b
  | cons c m ih =>
    have htail := Memory.wf_tail h
    have hrise : ∀ x ∈ m, c.1 < x.1 := (List.pairwise_cons.mp h.1).1
    unfold Memory.write
    split
    · rw [Memory.read_cons, Memory.read_cons, ih htail]
      split <;> split <;> first | rfl | omega
    · split
      · rename_i heq
        rw [Memory.read_put v (fun x hx => heq ▸ hrise x hx), Memory.read_cons, heq]
        split <;> rfl
      · rename_i hlt hne
        refine Memory.read_put v (fun x hx => ?_) b
        rcases List.mem_cons.mp hx with rfl | hx
        · omega
        · have := hrise x hx; omega

theorem Memory.wf_put {m : List Host.Cell} {a : Nat} (v : Byte) (hm : Memory.wf m) (ha : a < 0x4000)
    (h : ∀ c ∈ m, a < c.1) : Memory.wf (Memory.put a v m) := by
  unfold Memory.put
  split
  · exact hm
  · rename_i hv
    refine ⟨List.pairwise_cons.mpr ⟨h, hm.1⟩, fun x hx => ?_⟩
    rcases List.mem_cons.mp hx with rfl | hx
    · exact ⟨ha, hv⟩
    · exact hm.2 x hx

/-- A write adds no offset but its own. -/
theorem Memory.mem_write {m : List Host.Cell} {a : Nat} {v : Byte} {x : Host.Cell} (h : x ∈ Memory.write m a v) :
    x = (a, v) ∨ x ∈ m := by
  induction m with
  | nil =>
    simp only [Memory.write, Memory.put] at h
    split at h <;> simp_all
  | cons c m ih =>
    unfold Memory.write at h
    split at h
    · rcases List.mem_cons.mp h with rfl | h
      · simp
      · rcases ih h with h | h <;> simp [h]
    · split at h
      all_goals
        unfold Memory.put at h
        split at h
        all_goals simp_all
        try tauto

/-- A write inside the store keeps the canonical form. -/
theorem Memory.wf_write {m : List Host.Cell} (h : Memory.wf m) {a : Nat} (ha : a < 0x4000) (v : Byte) :
    Memory.wf (Memory.write m a v) := by
  induction m with
  | nil => exact Memory.wf_put v h ha (by simp)
  | cons c m ih =>
    have htail := Memory.wf_tail h
    have hrise : ∀ x ∈ m, c.1 < x.1 := (List.pairwise_cons.mp h.1).1
    unfold Memory.write
    split
    · rename_i hlt
      refine ⟨List.pairwise_cons.mpr ⟨fun x hx => ?_, (ih htail).1⟩, fun x hx => ?_⟩
      · rcases Memory.mem_write hx with rfl | hx
        · exact hlt
        · exact hrise x hx
      · rcases List.mem_cons.mp hx with rfl | hx
        · exact h.2 x (by simp)
        · exact (ih htail).2 x hx
    · split
      · rename_i heq
        exact Memory.wf_put v htail ha fun x hx => heq ▸ hrise x hx
      · rename_i hlt hne
        refine Memory.wf_put v h ha fun x hx => ?_
        rcases List.mem_cons.mp hx with rfl | hx
        · omega
        · have := hrise x hx; omega

/-- The offset of a host address is the address mod 0x4000 (R102). -/
theorem vramOffset_eq (addr : BitVec 20) : vramOffset addr = addr.toNat % 0x4000 := by
  have h : ((0x3FFF : BitVec 20)).toNat = 2 ^ 14 - 1 := by decide
  simp only [vramOffset, BitVec.toNat_and, h, Nat.and_two_pow_sub_one_eq_mod]

theorem vramOffset_lt (addr : BitVec 20) : vramOffset addr < 0x4000 := by
  rw [vramOffset_eq]; omega

end Sys2Proof.Machine
end

