-- ==== Sys2Proof/Laws/Params.lean ====
section
/-! SUPPORT. The two parameters of spec/00_scope.md R8 that are functions and stand in the record as data: every function the
spec allows can be given (logs 11, 12). -/

namespace Sys2Proof.Machine

/-! ### P_PAL_FMT -/

@[simp] theorem evalPair_copyBit (i : Fin 16) (w : BitVec 16) : evalPair (.copyBit i) w = w.getLsbD i := by
  simp [evalPair, PairFormula.copyBit]

/-- A 3-bit number from its bits. -/
theorem three_bits (x : BitVec 3) :
    BitVec.ofBool (x.getLsbD 2) ++ BitVec.ofBool (x.getLsbD 1) ++ BitVec.ofBool (x.getLsbD 0) = x := by
  revert x
  decide

/-- A channel whose three bits are copied from consecutive places is a bit field (R380). -/
theorem pairChannel_copy (i j k : Fin 16) (w : BitVec 16) (hj : j.val = i.val + 1) (hk : k.val = i.val + 2) :
    pairChannel #v[.copyBit i, .copyBit j, .copyBit k] w = w.extractLsb' i 3 := by
  rw [← three_bits (w.extractLsb' i 3)]
  simp [pairChannel, hj, hk]

/-- The bit vectors of a width, listed. -/
theorem bitVec_list (n : Nat) : ∃ l : List (BitVec n), ∀ w, w ∈ l :=
  ⟨(List.finRange (2 ^ n)).map BitVec.ofFin, fun w => List.mem_map.mpr ⟨w.toFin, List.mem_finRange _, rfl⟩⟩

/-- Every Boolean function of a register pair is given by a formula. -/
theorem evalPair_complete (f : BitVec 16 → Bool) : ∃ l : PairFormula, ∀ w, evalPair l w = f w := by
  obtain ⟨all, hall⟩ := bitVec_list 16
  refine ⟨(all.filter f).map fun v => (List.finRange 16).map fun i => { bit := i, value := v.getLsbD i }, fun w => ?_⟩
  rw [Bool.eq_iff_iff]
  simp only [evalPair, List.any_map, List.any_eq_true, List.mem_filter, Function.comp, List.all_map, List.all_eq_true,
    beq_iff_eq]
  constructor
  · rintro ⟨v, ⟨-, hv⟩, h⟩
    have e : w = v := by
      ext j hj
      simpa [BitVec.getLsbD_eq_getElem hj] using h ⟨j, hj⟩ (List.mem_finRange _)
    rw [e]; exact hv
  · intro h
    exact ⟨w, ⟨hall w, h⟩, fun _ _ => rfl⟩

/-- Every 3-bit function of a register pair is a channel. -/
theorem pairChannel_complete (f : BitVec 16 → BitVec 3) : ∃ fs : Vector PairFormula 3, ∀ w, pairChannel fs w = f w := by
  obtain ⟨l0, h0⟩ := evalPair_complete fun w => (f w).getLsbD 0
  obtain ⟨l1, h1⟩ := evalPair_complete fun w => (f w).getLsbD 1
  obtain ⟨l2, h2⟩ := evalPair_complete fun w => (f w).getLsbD 2
  refine ⟨#v[l0, l1, l2], fun w => ?_⟩
  rw [← three_bits (f w), ← h0, ← h1, ← h2]
  rfl

/-! ### P_UNSUPPORTED -/

/-- The fields of an indexed kind, listed. -/
def indexedFields {n : Nat} (g : Fin n → StateField) : List StateField := (List.finRange n).map g

theorem mem_indexedFields {n : Nat} (g : Fin n → StateField) (i : Fin n) : g i ∈ indexedFields g :=
  List.mem_map.mpr ⟨i, List.mem_finRange i, rfl⟩

/-- The fields of the state record that have no index. -/
def plainFields : List StateField :=
  [.crtcIndex, .extIndex, .mode, .colorSelect, .displayType, .compositeVariant, .monoContrast, .con, .cursorBlinkOn,
   .firstLine, .lastLine, .blinkCounter, .oddEven, .prevW, .prevH, .half, .scanline, .vCounter, .displayLine, .memAddr,
   .memAddrBack, .adjRem, .vsyncRem, .dispOn]

/-- The fields of the state record, listed. -/
def stateFields : List StateField :=
  List.flatten [plainFields, indexedFields .crtc, indexedFields .ext, indexedFields .paletteR, indexedFields .paletteG,
    indexedFields .paletteB, indexedFields .vram, indexedFields .shadow]

theorem mem_stateFields (f : StateField) : f ∈ stateFields := by
  rw [stateFields, List.mem_flatten]
  cases f
  case crtc i => exact ⟨_, by simp, mem_indexedFields .crtc i⟩
  case ext i => exact ⟨_, by simp, mem_indexedFields .ext i⟩
  case paletteR i => exact ⟨_, by simp, mem_indexedFields .paletteR i⟩
  case paletteG i => exact ⟨_, by simp, mem_indexedFields .paletteG i⟩
  case paletteB i => exact ⟨_, by simp, mem_indexedFields .paletteB i⟩
  case vram i => exact ⟨_, by simp, mem_indexedFields .vram i⟩
  case shadow i => exact ⟨_, by simp, mem_indexedFields .shadow i⟩
  all_goals exact ⟨plainFields, by simp, by simp [plainFields]⟩

/-- Every field is a number below 2^16. -/
theorem select_lt (d : Device) (f : StateField) : d.select f < 2 ^ 16 := by
  cases f <;> simp only [Device.select]
  all_goals first
    | exact lt_of_lt_of_le (BitVec.isLt _) (by decide)
    | exact lt_of_lt_of_le (Bool.toNat_lt _) (by decide)
    | skip
  case extIndex => omega
  case displayType => cases d.config.displayType <;> decide
  case compositeVariant => cases d.config.compositeVariant <;> decide
  case half => split <;> decide

/-- Two instances whose fields read the same have the same state record: registers, palette, configuration, raster, frame
bookkeeping but for the accumulated lines, and every byte of the video memory. -/
theorem select_ext {d d' : Device} (h : ∀ f, d.select f = d'.select f) :
    d.regs = d'.regs ∧ d.palette = d'.palette ∧ d.config = d'.config ∧ d.raster = d'.raster ∧
      { d.frame with frameLines := [] } = { d'.frame with frameLines := [] } ∧
      ∀ a, a < 0x4000 → d.vramAt a = d'.vramAt a := by
  have bits {n : Nat} {x y : BitVec n} (e : x.toNat = y.toNat) : x = y := BitVec.eq_of_toNat_eq e
  have bools {x y : Bool} (e : x.toNat = y.toNat) : x = y := by cases x <;> cases y <;> simp_all
  have hhalf : d.raster.half = d'.raster.half := by
    have := h .half
    simp only [Device.select] at this
    cases h1 : d.raster.half <;> cases h2 : d'.raster.half <;> simp_all
  have hdisplay : d.config.displayType = d'.config.displayType := by
    have := h .displayType
    simp only [Device.select] at this
    cases h1 : d.config.displayType <;> cases h2 : d'.config.displayType <;> simp_all [displayTypeCode]
  have hcomposite : d.config.compositeVariant = d'.config.compositeVariant := by
    have := h .compositeVariant
    simp only [Device.select] at this
    cases h1 : d.config.compositeVariant <;> cases h2 : d'.config.compositeVariant <;> simp_all [compositeVariantCode]
  have hpalette : d.palette = d'.palette := vector_eq_of_entries fun k => by
    have hr := bits (h (.paletteR k)); have hg := bits (h (.paletteG k)); have hb := bits (h (.paletteB k))
    revert hr hg hb
    cases d.palette[k]; cases d'.palette[k]
    rintro ⟨⟩ ⟨⟩ ⟨⟩; rfl
  refine ⟨?_, hpalette, ?_, ?_, ?_, fun a ha => bits (h (.vram ⟨a, ha⟩))⟩
  · have h1 := bits (h .crtcIndex); have h2 : d.regs.extIndex = d'.regs.extIndex := Fin.ext (h .extIndex)
    have h3 := bits (h .mode); have h4 := bits (h .colorSelect)
    have h5 : d.regs.crtc = d'.regs.crtc := vector_eq_of_entries fun i => bits (h (.crtc i))
    have h6 : d.regs.ext = d'.regs.ext := vector_eq_of_entries fun i => bits (h (.ext i))
    revert h1 h2 h3 h4 h5 h6
    cases d.regs; cases d'.regs
    rintro ⟨⟩ ⟨⟩ ⟨⟩ ⟨⟩ ⟨⟩ ⟨⟩; rfl
  · have h1 := bools (h .monoContrast)
    revert h1 hdisplay hcomposite
    cases d.config; cases d'.config
    rintro ⟨⟩ ⟨⟩ ⟨⟩; rfl
  · have h1 := bits (h .scanline); have h2 := bits (h .vCounter); have h3 := bits (h .displayLine)
    have h4 := bits (h .memAddr); have h5 := bits (h .memAddrBack); have h6 := bits (h .adjRem)
    have h7 := bits (h .vsyncRem); have h8 := bools (h .dispOn); have h9 := bools (h .con)
    have h10 := bools (h .cursorBlinkOn)
    have h11 : d.raster.shadow = d'.raster.shadow := vector_eq_of_entries fun i => bits (h (.shadow i))
    revert hhalf h1 h2 h3 h4 h5 h6 h7 h8 h9 h10 h11
    cases d.raster; cases d'.raster
    rintro ⟨⟩ ⟨⟩ ⟨⟩ ⟨⟩ ⟨⟩ ⟨⟩ ⟨⟩ ⟨⟩ ⟨⟩ ⟨⟩ ⟨⟩ ⟨⟩; rfl
  · have h1 := bits (h .firstLine); have h2 := bits (h .lastLine); have h3 := bits (h .blinkCounter)
    have h4 := bools (h .oddEven); have h5 := bits (h .prevW); have h6 := bits (h .prevH)
    revert h1 h2 h3 h4 h5 h6
    cases d.frame; cases d'.frame
    rintro ⟨⟩ ⟨⟩ ⟨⟩ ⟨⟩ ⟨⟩ ⟨⟩; rfl

/-- Every predicate of the state record is given by a list of patterns. -/
theorem isUnsupported_complete (p : Params) (P : Device → Bool)
    (hP : ∀ d d', (∀ f, d.select f = d'.select f) → P d = P d') :
    ∃ l, ∀ d, isUnsupported { p with unsupported := l } d = P d := by
  classical
  have : Finite StateField := Set.finite_univ_iff.mp ((List.finite_toSet stateFields).subset fun f _ => mem_stateFields f)
  let code (d : Device) : StateField → Fin (2 ^ 16) := fun f => ⟨d.select f, select_lt d f⟩
  let accepted : Set (StateField → Fin (2 ^ 16)) := code '' { d | P d = true }
  have hfin : accepted.Finite := Set.toFinite _
  refine ⟨hfin.toFinset.toList.map fun g => stateFields.map fun f => { field := f, mask := 2 ^ 16 - 1, value := g f }, fun d => ?_⟩
  have hmask (f : StateField) : d.select f &&& (2 ^ 16 - 1) = d.select f := by
    rw [Nat.and_two_pow_sub_one_eq_mod, Nat.mod_eq_of_lt (select_lt d f)]
  rw [Bool.eq_iff_iff]
  simp only [isUnsupported, List.any_map, List.any_eq_true, Finset.mem_toList, Set.Finite.mem_toFinset, Function.comp,
    List.all_map, List.all_eq_true, Device.meets, decide_eq_true_eq, hmask]
  constructor
  · rintro ⟨g, ⟨d', hd', rfl⟩, hg⟩
    rw [hP d d' fun f => hg f (mem_stateFields f)]; exact hd'
  · intro h
    exact ⟨code d, ⟨d, h, rfl⟩, fun _ _ => rfl⟩

end Sys2Proof.Machine
end

