-- ==== Sys2Proof/Laws/PerInstr.lean ====
section
/-! SUPPORT. Statements about every instruction as syntax, one lemma per constructor: the kind field of the encoded word. -/

namespace Sys2Proof.Laws

/-- The kind value the spec gives the row of an instruction (spec/30_encoding.md R141). -/
def kindOf : Instr → BitVec 4
  | .outCrtcIndex _ _ => 0
  | .outCrtcData _ _ => 0
  | .outMode _ => 0
  | .outColsel _ => 0
  | .outNop3da _ => 0
  | .outNop3db _ => 0
  | .outNop3dc _ => 0
  | .outExtIndex _ => 0
  | .outExtData _ => 0
  | .outReserved _ => 0
  | .iowUnclaimed _ _ => 0
  | .inCrtcIndex => 1
  | .inCrtcData => 1
  | .inStatus => 1
  | .inFf3d0 _ => 1
  | .inFf3d6 _ => 1
  | .inFf3d8 _ => 1
  | .inFf3db => 1
  | .inFf3dc _ => 1
  | .iorUnclaimed _ => 1
  | .memw _ _ => 2
  | .memr _ => 3
  | .memwUnclaimed _ _ => 2
  | .memrUnclaimed _ => 3
  | .tick => 4
  | .attach => 5
  | .detach => 6
  | .reserved7 => 7
  | .reserved8to15 low => 8 ||| low.setWidth 4

/-- The encoded word carries the row's kind in bits 31:28 (R140, R141). -/
def EncodeKind.Statement (i : Instr) : Prop := wordKind (encode i) = kindOf i

theorem EncodeKind.outCrtcIndex (al : BitVec 2) (v : Byte) : EncodeKind.Statement (.outCrtcIndex al v) := wordKind_encodeIow _ _

theorem EncodeKind.outCrtcData (al : BitVec 2) (v : Byte) : EncodeKind.Statement (.outCrtcData al v) := wordKind_encodeIow _ _

theorem EncodeKind.outMode (v : Byte) : EncodeKind.Statement (.outMode v) := wordKind_encodeIow _ _

theorem EncodeKind.outColsel (v : Byte) : EncodeKind.Statement (.outColsel v) := wordKind_encodeIow _ _

theorem EncodeKind.outNop3da (v : Byte) : EncodeKind.Statement (.outNop3da v) := wordKind_encodeIow _ _

theorem EncodeKind.outNop3db (v : Byte) : EncodeKind.Statement (.outNop3db v) := wordKind_encodeIow _ _

theorem EncodeKind.outNop3dc (v : Byte) : EncodeKind.Statement (.outNop3dc v) := wordKind_encodeIow _ _

theorem EncodeKind.outExtIndex (v : Byte) : EncodeKind.Statement (.outExtIndex v) := wordKind_encodeIow _ _

theorem EncodeKind.outExtData (v : Byte) : EncodeKind.Statement (.outExtData v) := wordKind_encodeIow _ _

theorem EncodeKind.outReserved (v : Byte) : EncodeKind.Statement (.outReserved v) := wordKind_encodeIow _ _

theorem EncodeKind.iowUnclaimed (port : BitVec 16) (v : Byte) : EncodeKind.Statement (.iowUnclaimed port v) := wordKind_encodeIow _ _

theorem EncodeKind.inCrtcIndex : EncodeKind.Statement (.inCrtcIndex) := wordKind_encodeIor _

theorem EncodeKind.inCrtcData : EncodeKind.Statement (.inCrtcData) := wordKind_encodeIor _

theorem EncodeKind.inStatus : EncodeKind.Statement (.inStatus) := wordKind_encodeIor _

theorem EncodeKind.inFf3d0 (al : BitVec 2) : EncodeKind.Statement (.inFf3d0 al) := wordKind_encodeIor _

theorem EncodeKind.inFf3d6 (al : BitVec 1) : EncodeKind.Statement (.inFf3d6 al) := wordKind_encodeIor _

theorem EncodeKind.inFf3d8 (al : BitVec 1) : EncodeKind.Statement (.inFf3d8 al) := wordKind_encodeIor _

theorem EncodeKind.inFf3db : EncodeKind.Statement (.inFf3db) := wordKind_encodeIor _

theorem EncodeKind.inFf3dc (al : BitVec 2) : EncodeKind.Statement (.inFf3dc al) := wordKind_encodeIor _

theorem EncodeKind.iorUnclaimed (port : BitVec 16) : EncodeKind.Statement (.iorUnclaimed port) := wordKind_encodeIor _

theorem EncodeKind.memw (addr : BitVec 20) (v : Byte) : EncodeKind.Statement (.memw addr v) := wordKind_encodeMemw _ _

theorem EncodeKind.memr (addr : BitVec 20) : EncodeKind.Statement (.memr addr) := wordKind_encodeMemr _

theorem EncodeKind.memwUnclaimed (addr : BitVec 20) (v : Byte) : EncodeKind.Statement (.memwUnclaimed addr v) := wordKind_encodeMemw _ _

theorem EncodeKind.memrUnclaimed (addr : BitVec 20) : EncodeKind.Statement (.memrUnclaimed addr) := wordKind_encodeMemr _

theorem EncodeKind.tick : EncodeKind.Statement (.tick) := by unfold EncodeKind.Statement; decide

theorem EncodeKind.attach : EncodeKind.Statement (.attach) := by unfold EncodeKind.Statement; decide

theorem EncodeKind.detach : EncodeKind.Statement (.detach) := by unfold EncodeKind.Statement; decide

theorem EncodeKind.reserved7 : EncodeKind.Statement (.reserved7) := by unfold EncodeKind.Statement; decide

theorem EncodeKind.reserved8to15 (low : BitVec 3) : EncodeKind.Statement (.reserved8to15 low) := wordKind_reserved8to15 low

end Sys2Proof.Laws
end

