-- ==== Sys2Proof/Laws/Registers.lean ====
section
/-! SUPPORT. What the register file and its fields compute: 16-bit pairs, the extended index, one palette entry, the variant,
the status byte. -/

namespace Sys2Proof.Machine

/-- A byte pair as a number, the first byte high (R9). -/
theorem word16_toNat (hi lo : Byte) : (word16 hi lo).toNat = hi.toNat * 256 + lo.toNat := by
  have e : word16 hi lo = hi ++ lo := by
    unfold word16
    ext j hj
    rw [BitVec.getElem_append]
    simp
    interval_cases j <;> simp
  rw [e, BitVec.toNat_append, ← Nat.shiftLeft_add_eq_or_of_lt lo.isLt, Nat.shiftLeft_eq]

theorem startAddr_toNat (c : Regs) : (startAddr c).toNat = (c.crtc[12].toNat * 256 + c.crtc[13].toNat) % 0x4000 := by
  simp [startAddr, word16_toNat]

theorem textCursorAddr_toNat (c : Regs) :
    (textCursorAddr c).toNat = (c.crtc[14].toNat * 256 + c.crtc[15].toNat) % 0x4000 := by
  simp [textCursorAddr, word16_toNat]

@[simp] theorem wrapExt_val (n : Nat) : (wrapExt n).val = n % 106 := rfl

/-- The palette after an extended write: the entry of the written pair is recomputed (R209). -/
theorem paletteAfterExt_getElem (p : Params) (c : Regs) (pal : Vector Rgb 16) (i : Nat) (k : Fin 16) :
    (paletteAfterExt p c pal i)[k] =
      if i = 0x40 + 2 * k.val ∨ i = 0x41 + 2 * k.val then palEntry p c k else pal[k] := by
  have hk := k.isLt
  by_cases h : 64 ≤ i ∧ i < 96
  · have e : paletteAfterExt p c pal i = recomputeEntry p c pal ((i - 64) / 2) := if_pos h
    simp only [e, recomputeEntry, Fin.getElem_fin, Vector.getElem_setIfInBounds]
    by_cases h2 : (i - 64) / 2 = k.val
    · have h3 : i = 64 + 2 * k.val ∨ i = 65 + 2 * k.val := by omega
      simp [h2, h3]
    · have h3 : ¬ (i = 64 + 2 * k.val ∨ i = 65 + 2 * k.val) := by omega
      simp [h2, h3]
  · have e : paletteAfterExt p c pal i = pal := if_neg h
    have h3 : ¬ (i = 64 + 2 * k.val ∨ i = 65 + 2 * k.val) := by omega
    simp [e, h3]

theorem csColor_eq (c : Regs) : csColor c = BitVec.ofNat 4 (c.colorSelect.toNat % 16) := by
  apply BitVec.eq_of_toNat_eq
  simp [csColor]

/-- The effective scanline as a number (R324). -/
theorem effectiveScanline_toNat (p : Params) (d : Device) :
    (effectiveScanline p d).toNat =
      if isInterlaced p d.regs = true then (2 * d.raster.scanline.toNat + d.frame.oddEven.toNat) % 32
      else d.raster.scanline.toNat := by
  unfold effectiveScanline
  split <;> simp

/-- The 16-bit word of a graphics line as a number (R335). -/
theorem graphicsWord_toNat (p : Params) (d : Device) (w : Nat) :
    (graphicsWord p d w).toNat =
      let a := (2 * (d.raster.memAddr.toNat + w)) % 0x2000 + 0x2000 * ((effectiveScanline p d).toNat % 2)
      (d.vramAt a).toNat * 256 + (d.vramAt (a + 1)).toNat := by
  have h : ((effectiveScanline p d).getLsbD 0).toNat = (effectiveScanline p d).toNat % 2 := by
    simp [BitVec.getLsbD, Nat.testBit_zero]
    rcases Nat.mod_two_eq_zero_or_one (effectiveScanline p d).toNat with h | h <;> simp [h]
  simp only [graphicsWord, word16_toNat, graphicsAddr, h]

theorem rowHeight_cases (c : Regs) : rowHeight c = 8 ∨ rowHeight c = 2 := by
  unfold rowHeight
  cases variant c <;> simp [Variant.rowHeight]

/-! ### Fields written out from the register bytes -/

/-- The row height from the mode bits (R261, R320). -/
theorem rowHeight_eq (c : Regs) :
    rowHeight c = if c.mode.getLsbD 0 = true ∨ c.mode.getLsbD 1 = false then 8 else 2 := by
  unfold rowHeight variant variantOf
  cases c.mode.getLsbD 0 <;> cases c.mode.getLsbD 1 <;> cases c.mode.getLsbD 4 <;> rfl

/-- The height code as a number (R42). -/
theorem heightCode_toNat (p : Params) (c : Regs) :
    (heightCode p c).toNat = c.ext[0x65].toNat / 2 ^ p.resHLsb.val % 4 := by
  simp [heightCode, Nat.shiftRight_eq_div_pow]

/-- The lookup entry from ext[0x65] (R42, R260). -/
theorem vertEntry_eq (p : Params) (c : Regs) :
    vertEntry p c = p.vtab[c.ext[0x65].toNat / 2 ^ p.resHLsb.val % 4]'(Nat.mod_lt _ (by decide)) := by
  simp only [vertEntry, heightCode_toNat]

/-- The interlaced flag from ext[0x65] (R42, R324). -/
theorem isInterlaced_eq (p : Params) (c : Regs) :
    isInterlaced p c = p.interlaced[c.ext[0x65].toNat / 2 ^ p.resHLsb.val % 4]'(Nat.mod_lt _ (by decide)) := by
  simp only [isInterlaced, heightCode_toNat]

theorem cursorX_toNat (c : Regs) : (cursorX c).toNat = c.ext[0x60].toNat * 256 + c.ext[0x61].toNat := word16_toNat _ _

/-- A row of the AND mask as a number (R35). -/
theorem andRow_toNat (c : Regs) (r : Nat) (h : r < 16) :
    (andRow c r).toNat = (c.ext[2 * r]'(by omega)).toNat * 256 + (c.ext[2 * r + 1]'(by omega)).toNat := by
  rw [andRow, word16_toNat, extAt_of_lt c _ (by omega), extAt_of_lt c _ (by omega)]

/-- A row of the XOR mask as a number (R36). -/
theorem xorRow_toNat (c : Regs) (r : Nat) (h : r < 16) :
    (xorRow c r).toNat = (c.ext[0x20 + 2 * r]'(by omega)).toNat * 256 + (c.ext[0x21 + 2 * r]'(by omega)).toNat := by
  rw [xorRow, word16_toNat, extAt_of_lt c _ (by omega), extAt_of_lt c _ (by omega)]

/-- The nibbles of a byte as numbers. -/
theorem highNibble_eq (b : Byte) : b.extractLsb' 4 4 = BitVec.ofNat 4 (b.toNat / 16) := by
  apply BitVec.eq_of_toNat_eq
  simp [Nat.shiftRight_eq_div_pow]

theorem lowNibble_eq (b : Byte) : b.extractLsb' 0 4 = BitVec.ofNat 4 (b.toNat % 16) := by
  apply BitVec.eq_of_toNat_eq
  simp

end Sys2Proof.Machine
end

