-- ==== Sys2Proof/Tests/Slice0.lean ====
section
/-! SUPPORT. The model's own tests: ill-formed instructions, the words of every opcode-table row written out from
spec/30_encoding.md, single steps from spec/95_test_vectors.md, and for each obligation with hypotheses a concrete state
and operands that meet them. -/

namespace Sys2Proof.Tests
open Sys2Proof Sys2Proof.Machine
set_option Elab.async false

/-! ### Well-formedness: one ill-formed term per check -/

theorem test_wf_memw_outside : (Instr.memw 0xB7FFF 0x11).wf Window.reference = false := by decide
theorem test_wf_memr_outside : (Instr.memr 0xC0000).wf Window.reference = false := by decide
theorem test_wf_memwUnclaimed_inside : (Instr.memwUnclaimed 0xBFFFF 0x11).wf Window.reference = false := by decide
theorem test_wf_memrUnclaimed_inside : (Instr.memrUnclaimed 0xB8000).wf Window.reference = false := by decide
theorem test_wf_iowUnclaimed_claimed : (Instr.iowUnclaimed 0x3DF 0x00).wf Window.reference = false := by decide
theorem test_wf_iorUnclaimed_claimed : (Instr.iorUnclaimed 0x3D0).wf Window.reference = false := by decide
theorem test_wf_bounds : (Instr.memw 0xB8000 0).wf Window.reference = true ∧ (Instr.memr 0xBFFFF).wf Window.reference = true ∧
    (Instr.iowUnclaimed 0x3CF 0).wf Window.reference = true ∧ (Instr.iorUnclaimed 0x3E0).wf Window.reference = true := by
  decide

/-! ### Decoding: words written out from R140 (kind, port or address, data) and the maps R145-R149 -/
theorem test_decode_outCrtcIndex : decodeTableWord 32 0x0003D60E = some (.outCrtcIndex 3 0x0E) := by decide
theorem test_decode_outCrtcData : decodeTableWord 32 0x0003D5FF = some (.outCrtcData 2 0xFF) := by decide
theorem test_decode_outMode : decodeTableWord 32 0x0003D81A = some (.outMode 0x1A) := by decide
theorem test_decode_outColsel : decodeTableWord 32 0x0003D90F = some (.outColsel 0x0F) := by decide
theorem test_decode_outNop3da : decodeTableWord 32 0x0003DAFF = some (.outNop3da 0xFF) := by decide
theorem test_decode_outNop3db : decodeTableWord 32 0x0003DB12 = some (.outNop3db 0x12) := by decide
theorem test_decode_outNop3dc : decodeTableWord 32 0x0003DC34 = some (.outNop3dc 0x34) := by decide
theorem test_decode_outExtIndex : decodeTableWord 32 0x0003DD40 = some (.outExtIndex 0x40) := by decide
theorem test_decode_outExtData : decodeTableWord 32 0x0003DE57 = some (.outExtData 0x57) := by decide
theorem test_decode_outReserved : decodeTableWord 32 0x0003DF55 = some (.outReserved 0x55) := by decide
theorem test_decode_iowUnclaimed : decodeTableWord 32 0x0003B400 = some (.iowUnclaimed 0x3B4 0x00) := by decide
theorem test_decode_inCrtcIndex : decodeTableWord 32 0x1003D400 = some (.inCrtcIndex) := by decide
theorem test_decode_inCrtcData : decodeTableWord 32 0x1003D500 = some (.inCrtcData) := by decide
theorem test_decode_inStatus : decodeTableWord 32 0x1003DA00 = some (.inStatus) := by decide
theorem test_decode_inFf3d0 : decodeTableWord 32 0x1003D300 = some (.inFf3d0 3) := by decide
theorem test_decode_inFf3d6 : decodeTableWord 32 0x1003D700 = some (.inFf3d6 1) := by decide
theorem test_decode_inFf3d8 : decodeTableWord 32 0x1003D900 = some (.inFf3d8 1) := by decide
theorem test_decode_inFf3db : decodeTableWord 32 0x1003DB00 = some (.inFf3db) := by decide
theorem test_decode_inFf3dc : decodeTableWord 32 0x1003DE00 = some (.inFf3dc 2) := by decide
theorem test_decode_iorUnclaimed : decodeTableWord 32 0x1003B400 = some (.iorUnclaimed 0x3B4) := by decide
theorem test_decode_memw : decodeTableWord 32 0x2BA000FF = some (.memw 0xBA000 0xFF) := by decide
theorem test_decode_memr : decodeTableWord 32 0x3BE00100 = some (.memr 0xBE001) := by decide
theorem test_decode_memwUnclaimed : decodeTableWord 32 0x2B7FFF11 = some (.memwUnclaimed 0xB7FFF 0x11) := by decide
theorem test_decode_memrUnclaimed : decodeTableWord 32 0x3C000000 = some (.memrUnclaimed 0xC0000) := by decide
theorem test_decode_tick : decodeTableWord 32 0x40000000 = some (.tick) := by decide
theorem test_decode_attach : decodeTableWord 32 0x50000000 = some (.attach) := by decide
theorem test_decode_detach : decodeTableWord 32 0x60000000 = some (.detach) := by decide
theorem test_decode_reserved7 : decodeTableWord 32 0x70000000 = some (.reserved7) := by decide
theorem test_decode_reserved8to15 : decodeTableWord 32 0xB0000000 = some (.reserved8to15 3) := by decide
theorem test_decode_wider_number : decodeTableWord 32 0x100000000 = none := by decide
theorem test_decode_bytes : decodeBytes Window.reference [0x57, 0xDE, 0x03, 0x00, 0xAA] = .ok (.outExtData 0x57, [0xAA]) := by
  rfl
theorem test_decode_bytes_truncated : decodeBytes Window.reference [0x57, 0xDE, 0x03] = .error .truncated := by rfl

/-! ### Small states -/

/-- The state an operation leads to. -/
def after (i : Instr) (s : State) : Option State :=
  match exec i s with
  | .next t => some t
  | .fault _ => none
  | .refused _ => none

/-- What `f` reads of the instance an operation leads to. -/
def field {α : Type} (f : Device → α) (i : Instr) (s : State) : Option α := (after i s).bind fun t => t.device.map f

/-- The last event of an operation. -/
def lastEvent (i : Instr) (s : State) : Option Event := (after i s).bind fun t => t.events.getLast?

/-- The reset instance with other registers. -/
def regsDevice (f : Regs → Regs) : Device := { Device.reset with regs := f Regs.reset }

/-- The reset instance at another raster position. -/
def rasterDevice (f : Raster → Raster) : Device := { Device.reset with raster := f Raster.reset }

/-- The state after reset with another instance. -/
def withDevice (d : Device) : State := { State.reset with device := some d }

/-- The state with no instance. -/
def detached : State := { State.reset with device := none }

/-- The instance in VisibleHalf at a scanline, a row and a pad count, with the display on. -/
def visibleAt (scanline : BitVec 5) (row : BitVec 7) (adjRem : BitVec 8) : Device :=
  rasterDevice fun r => { r with half := .visible, scanline := scanline, vCounter := row, adjRem := adjRem, dispOn := true }

/-- The instance in BlankHalf at displayed line 38, as at the top of a steady frame (T7 of spec/95_test_vectors.md). -/
def displayedTop (c : Regs → Regs) : Device :=
  { regsDevice c with raster := { Raster.reset with dispOn := true, displayLine := 38 } }

/-- The parameters with `ADJ = 0` for every height code (T15). -/
def noAdjust : Params :=
  { Params.reference with vtab := Vector.replicate 4 { VertEntry.reference with adj := 0 } }

/-- The parameters that call the mode 0x1A unsupported. -/
def noGraphics640 : Params :=
  { Params.reference with unsupported := [[{ field := .mode, mask := 0x13, value := 0x12 }]] }

/-! ### Single steps (spec/95_test_vectors.md) -/

/-- W1. -/
theorem test_outCrtcIndex_wraps : field (·.regs.crtcIndex) (.outCrtcIndex 2 0x2E) State.reset = some 0x0E := by decide +kernel
/-- S4: index 4, mask 0x7F. -/
theorem test_outCrtcData_masks :
    field (·.regs.crtc[4]) (.outCrtcData 2 0xFF) (withDevice (regsDevice fun c => { c with crtcIndex := 4 })) = some 0x7F := by
  decide +kernel
/-- W2: index 18, mask 0x00. -/
theorem test_outCrtcData_mask_zero :
    field (·.regs.crtc[18]) (.outCrtcData 0 0xFF) (withDevice (regsDevice fun c => { c with crtcIndex := 18 })) = some 0x00 := by
  decide +kernel
/-- S6: bit 0 toggles. -/
theorem test_outMode_rebuild : lastEvent (.outMode 0x01) State.reset = some (.compositeRebuild 0x01) := by decide +kernel
/-- S6: bits 1, 3, 4, 5 only. -/
theorem test_outMode_no_rebuild : lastEvent (.outMode 0x3A) State.reset = none := by decide +kernel
/-- R206. -/
theorem test_outColsel : field (·.regs.colorSelect) (.outColsel 0x21) State.reset = some 0x21 := by decide +kernel
/-- W8. -/
theorem test_outNop3da : field id (.outNop3da 0xFF) State.reset = some Device.reset := rfl
theorem test_outNop3db : field id (.outNop3db 0x12) State.reset = some Device.reset := rfl
theorem test_outNop3dc : field id (.outNop3dc 0x34) State.reset = some Device.reset := rfl
theorem test_outReserved : field id (.outReserved 0x55) State.reset = some Device.reset := rfl
/-- W3. -/
theorem test_outExtIndex_wraps : field (·.regs.extIndex.val) (.outExtIndex 0xFF) State.reset = some 0x2B := by decide +kernel
/-- W3: the write at the last index wraps. -/
theorem test_outExtData_wraps :
    field (fun d => (d.regs.ext[0x69], d.regs.extIndex.val)) (.outExtData 0xAA)
      (withDevice (regsDevice fun c => { c with extIndex := 0x69 })) = some (0xAA, 0) := by decide +kernel
/-- W5: a single byte of pair 7. -/
theorem test_outExtData_palette :
    field (fun d => (d.palette[7], d.regs.extIndex.val)) (.outExtData 0x07)
      (withDevice (regsDevice fun c => { c with extIndex := 0x4E })) = some (⟨255, 182, 182⟩, 0x4F) := by decide +kernel
/-- R215: `OUT 0x3B4, 0x00`. -/
theorem test_iowUnclaimed : field id (.iowUnclaimed 0x3B4 0x00) State.reset = some Device.reset := rfl
/-- W1: bits 7:5 read 0. -/
theorem test_inCrtcIndex :
    lastEvent .inCrtcIndex (withDevice (regsDevice fun c => { c with crtcIndex := 0x1F })) = some (.read 0x1F) := by
  decide +kernel
theorem test_inCrtcData :
    lastEvent .inCrtcData
      (withDevice (regsDevice fun c => { c with crtcIndex := 8, crtc := c.crtc.set 8 0xF3 })) = some (.read 0xF3) := by
  decide +kernel
/-- W7: after ATTACH, whatever the draw. -/
theorem test_inStatus_after_attach : ∀ draw : Byte, statusByte Raster.reset draw &&& 0x09 = 0x01 := by decide +kernel
/-- W7: in VisibleHalf of a displayed line, and during the pulse with the display off. -/
theorem test_inStatus_displayed_and_vsync : ∀ draw : Byte,
    statusByte { Raster.reset with half := .visible, dispOn := true } draw &&& 0x09 = 0x00 ∧
    statusByte { Raster.reset with half := .blank, vsyncRem := 16 } draw &&& 0x09 = 0x09 := by decide +kernel
/-- W8 and E4. -/
theorem test_inFf3d0 : lastEvent (.inFf3d0 1) State.reset = some (.read 0xFF) := by decide +kernel
theorem test_inFf3d6 : lastEvent (.inFf3d6 0) State.reset = some (.read 0xFF) := by decide +kernel
theorem test_inFf3d8 : lastEvent (.inFf3d8 0) State.reset = some (.read 0xFF) := by decide +kernel
theorem test_inFf3db : lastEvent .inFf3db State.reset = some (.read 0xFF) := by decide +kernel
theorem test_inFf3dc : lastEvent (.inFf3dc 2) State.reset = some (.read 0xFF) := by decide +kernel
/-- W8: the device drives nothing. -/
theorem test_iorUnclaimed : lastEvent (.iorUnclaimed 0x3B4) State.reset = none := by decide +kernel
/-- M1: the alias 0xBC001 is offset 1. -/
theorem test_memw_offset : field (·.vram) (.memw 0xBC001 0x1F) State.reset = some [(1, 0x1F)] := by decide +kernel
/-- The canonical form: writing 0 back removes the entry. -/
theorem test_memw_zero_removes :
    field (·.vram) (.memw 0xB8001 0x00) (withDevice { Device.reset with vram := [(1, 0x1F), (2, 0x07)] }) =
      some [(2, 0x07)] := by decide +kernel
/-- M2: offset 0x3FFF. -/
theorem test_memr_top :
    lastEvent (.memr 0xBBFFF) (withDevice { Device.reset with vram := [(0x3FFF, 0x77)] }) = some (.read 0x77) := by
  decide +kernel
/-- M5. -/
theorem test_memr_reset : lastEvent (.memr 0xB8000) State.reset = some (.read 0x00) := by decide +kernel
/-- M4: no effect, no event. -/
theorem test_memwUnclaimed :
    field id (.memwUnclaimed 0xB7FFF 0x11) State.reset = some Device.reset ∧
    lastEvent (.memwUnclaimed 0xB7FFF 0x11) State.reset = none := ⟨rfl, rfl⟩
theorem test_memrUnclaimed : lastEvent (.memrUnclaimed 0xC0000) State.reset = none := by decide +kernel
/-- T1. -/
theorem test_tick_border :
    field (fun d => (d.raster.half, d.raster.displayLine, d.raster.memAddr)) .tick State.reset = some (.visible, 1, 0) := by
  decide +kernel
/-- T6: the end of row VT = 31 loads the six pad lines. -/
theorem test_tick_last_row :
    field (fun d => (d.raster.vCounter, d.raster.adjRem, d.raster.scanline)) .tick (withDevice (visibleAt 7 31 0)) =
      some (0, 6, 0) := by decide +kernel
/-- Z1. -/
theorem test_attach :
    field (fun d => (d.regs.ext[0x5F], d.palette[6], d.regs.ext[0x65], d.vram)) .attach detached =
      some (0x77, ⟨182, 72, 0⟩, 0x00, []) := by decide +kernel
/-- Z2. -/
theorem test_attach_failure :
    (after .attach { State.reset with attachIn := { State.reset.attachIn with allocOk := false } }).map
      (fun t => (t.device, t.outcome)) = some (none, .attachFailed) := by decide +kernel
/-- Z4. -/
theorem test_detach : (after .detach State.reset).map (·.device) = some none := by decide +kernel
theorem test_detach_twice : (after .detach detached).map (·.outcome) = some (.refused .noInstance) := by decide +kernel
/-- Z5. -/
theorem test_reserved7 :
    (after .reserved7 State.reset).map (fun t => (t.refused, t.outcome, t.device)) =
      some (true, .refused .reservedKind, some Device.reset) := rfl
theorem test_reserved8to15 :
    (after (.reserved8to15 7) State.reset).map (fun t => (t.refused, t.outcome)) =
      some (true, .refused .reservedKind) := by decide +kernel

/-! ### Pseudo-operations and parameters -/

/-- R153 with the window test of R147, as in the vectors M3 and M4: the second byte falls outside the window. -/
theorem test_pseudoMws_crosses_window :
    pseudoMws Window.reference 0xBFFFF [0x11, 0x22] = [.memw 0xBFFFF 0x11, .memwUnclaimed 0xC0000 0x22] := by decide
/-- R8: P_UNSUPPORTED is a predicate of the state, here of the display type. -/
theorem test_unsupported_by_configuration :
    let p := { Params.reference with unsupported := [[{ field := .displayType, mask := 7, value := 3 }]] }
    let green := { Device.reset with config := { HostConfig.reset with displayType := .green } }
    isUnsupported p Device.reset = false ∧ isUnsupported p green = true := by decide +kernel
/-- R8: a palette format whose red bits are b0[0], b1[7] and a constant 0. -/
theorem test_palette_format :
    pairChannel #v[.copyBit 8, .copyBit 7, []] 0x0180 = 3 ∧ pairChannel #v[.copyBit 8, .copyBit 7, []] 0xFE7F = 0 := by
  decide

/-! ### Steps of the sequence -/

/-- A step takes the word placed and runs it. -/
theorem test_step_runs_fetched_word :
    (match step (State.reset.withFetchWord 32 0x0003D90F) with
      | .next t => t.device.map (·.regs.colorSelect)
      | .fault _ => none
      | .refused _ => none) = some 0x0F := by decide +kernel
/-- After a refusal the run has ended. -/
theorem test_step_after_refusal :
    (match step ({ State.reset with refused := true }.withFetchWord 32 0x40000000) with
      | .next _ => false
      | .fault _ => false
      | .refused r => decide (r = .runEnded)) = true := by decide +kernel

/-! ### Lines -/

/-- G2: two logical pixels of the word 0x1BE4, and the next word. -/
theorem test_graphics320_pixels :
    let d := { displayedTop (fun c => { c with mode := 0x0A }) with vram := [(0, 0x1B), (1, 0xE4)] }
    ([1, 2, 4, 6, 9, 10, 12, 14, 16].map (renderPixel Params.reference d)) = [0, 2, 4, 6, 6, 4, 2, 0, 0] := by decide +kernel
/-- G6: the odd scanline reads bank 1. -/
theorem test_graphics640_bank :
    let d := { regsDevice (fun c => { c with mode := 0x1A, colorSelect := 0x0F }) with
      raster := { Raster.reset with scanline := 1 }, vram := [(0x2000, 0xFF)] }
    ([0, 7, 8, 639].map (renderPixel Params.reference d)) = [0xF, 0xF, 0, 0] := by decide +kernel
/-- G8, with the test font's byte for character 0x18 on row 0. -/
theorem test_text40_pixels :
    let d := { displayedTop id with vram := [(0, 0x18), (1, 0x1E)] }
    ([0, 5, 6, 9, 10, 15].map (renderPixel { Params.reference with font := [(0x180, 0x18)] } d)) =
      [1, 1, 0xE, 0xE, 1, 1] := by decide +kernel
/-- H1. -/
theorem test_cursor_overlay :
    let d := { displayedTop (fun c => { c with
        ext := ((((((c.ext.set 0 0x3F).set 1 0xFF).set 0x20 0xC0).set 0x61 0x10).set 0x63 0x10).set 0x64 0x07).set 0x68 0x0F })
      with vram := [] }
    ([0, 3, 4, 31, 32, 639].map fun x => (cursorOverlay Params.reference d (Vector.replicate 640 5))[x]?) =
      [some 0xA, some 0xA, some 0, some 0, some 5, some 5] := by decide +kernel
/-- S3 and the table of R376. -/
theorem test_mono_map :
    monoMap false 0x70 = (0x0, 0xF) ∧ monoMap false 0x78 = (0x7, 0xF) ∧ monoMap false 0x08 = (0x0, 0x0) ∧
    monoMap true 0xF0 = (0xF, 0xF) ∧ monoMap true 0x87 = (0x0, 0x0) ∧ monoMap false 0x87 = (0x7, 0x0) := by decide
/-- A3. -/
theorem test_scale_channel :
    ([0, 1, 2, 3, 4, 5, 6, 7].map scaleChannel) = [0, 36, 72, 109, 145, 182, 218, 255] := by decide
/-- O2. -/
theorem test_standard_palette :
    stdPal Params.reference HostConfig.reset 6 = ⟨0xAA, 0x55, 0x00⟩ ∧
    stdPal Params.reference { HostConfig.reset with displayType := .rgbNoBrown } 6 = ⟨0xAA, 0xAA, 0x00⟩ := by decide +kernel

/-! ### What the reset state and the parameters meet -/

theorem test_reset_memory_wf : Memory.wf Device.reset.vram := Memory.wf_nil
theorem test_reference_params_wf : Params.reference.wf = true := by decide +kernel
theorem test_noAdjust_wf : noAdjust.wf = true := by decide +kernel

/-! ### Witnesses: for each obligation with hypotheses, a concrete case of each clause -/

theorem witness_StepRunsTheDecodedOperation :
    (let s : State := { State.reset with pending := [⟨0x40000000, none⟩] }
     s.pending = ⟨0x40000000, none⟩ :: [] ∧ s.refused = false) ∧
    (let s : State := { State.reset with pending := [⟨0x50000000, none⟩], refused := true }
     s.pending = ⟨0x50000000, none⟩ :: [] ∧ decodeWord s.params.window 0x50000000 = .attach) ∧
    State.reset.refused = false := by decide +kernel
theorem witness_StepIdlesWhenEmptyAndStopsAfterRefusal :
    State.reset.pending = [] ∧
    (let s : State := { State.reset with pending := [⟨0x40000000, none⟩], refused := true }
     s.pending = ⟨0x40000000, none⟩ :: [] ∧ s.refused = true ∧ decodeWord s.params.window 0x40000000 ≠ .attach) := by
  decide +kernel
theorem witness_DecodeOfEncodeIsTheInstruction :
    (Instr.memw 0xBFFFF 0x41).wf Window.reference = true ∧ (Instr.memwUnclaimed 0xC0000 0x41).wf Window.reference = true ∧
    (Instr.iowUnclaimed 0x3CF 0x41).wf Window.reference = true ∧ (Instr.outCrtcIndex 3 0xFF).wf Window.reference = true := by
  decide
theorem witness_CrtcIndexWriteWrapsMod32 : State.reset.device = some Device.reset := rfl
theorem witness_CrtcDataWriteStoresTheMaskedValue : State.reset.device = some Device.reset := rfl
theorem witness_CrtcReadsReturnIndexAndSelectedRegister : State.reset.device = some Device.reset := rfl
theorem witness_CrtcWriteReadsBackMasked : State.reset.device = some Device.reset := rfl
theorem witness_ModeAndColourSelectWritesStoreTheByte : State.reset.device = some Device.reset := rfl
theorem witness_StatusReadGivesRetraceAndVsync : State.reset.device = some Device.reset := rfl
theorem witness_ExtIndexWriteWrapsMod106 : State.reset.device = some Device.reset := rfl
theorem witness_NoOpPortWritesChangeNothing : State.reset.device = some Device.reset := rfl
theorem witness_MemReadReturnsTheByteAndCharges : State.reset.device = some Device.reset := rfl
theorem witness_ExtDataWriteStoresRecomputesAndAdvances :
    (withDevice (regsDevice fun c => { c with extIndex := 0x5F })).device =
      some (regsDevice fun c => { c with extIndex := 0x5F }) ∧
    (0x5F = 0x41 + 2 * (15 : Fin 16).val) ∧ ((105 : Nat) + 1) % 106 = 0 := ⟨rfl, by decide, by decide⟩
theorem witness_ExtBlockLoadFillsSequentially :
    State.reset.device = some Device.reset ∧ (List.replicate 106 (0x55 : Byte)).length ≤ 106 ∧
    ([] : List Byte).length ≤ 106 := ⟨rfl, by decide, by decide⟩
theorem witness_SentinelReadsReturnFF :
    State.reset.device = some Device.reset ∧
    Instr.inFf3dc 3 ∈ [Instr.inFf3d0 0, .inFf3d6 1, .inFf3d8 1, .inFf3db, .inFf3dc 3] := ⟨rfl, by decide⟩
theorem witness_UnclaimedTransactionsChangeNothing :
    State.reset.device = some Device.reset ∧
    Instr.memrUnclaimed 0xC0000 ∈
      [Instr.iowUnclaimed 0x3B4 0, .iorUnclaimed 0x3B4, .memwUnclaimed 0xC0000 0, .memrUnclaimed 0xC0000] := ⟨rfl, by decide⟩
theorem witness_MemWriteStoresOneByteAndCharges :
    State.reset.device = some Device.reset ∧ Memory.wf Device.reset.vram := ⟨rfl, Memory.wf_nil⟩
theorem witness_MemReadAfterWriteSeesAliases :
    State.reset.device = some Device.reset ∧ Memory.wf Device.reset.vram ∧
    (0xBC001 : BitVec 20).toNat % 0x4000 = (0xB8001 : BitVec 20).toNat % 0x4000 ∧
    (0xBC001 : BitVec 20).toNat % 0x4000 ≠ (0xB8002 : BitVec 20).toNat % 0x4000 := ⟨rfl, Memory.wf_nil, by decide, by decide⟩
theorem witness_AttachCreatesAZeroedInstanceWithDefaults : State.reset.attachIn.allocOk = true := rfl
theorem witness_AttachWithReferenceParametersGivesReset :
    State.reset.params = Params.reference ∧ State.reset.attachIn.allocOk = true := ⟨rfl, rfl⟩
theorem witness_AttachFailureAndDetachLeaveNoInstance :
    ({ State.reset with attachIn := { State.reset.attachIn with allocOk := false } } : State).attachIn.allocOk = false ∧
    State.reset.device = some Device.reset := ⟨rfl, rfl⟩
theorem witness_ReservedKindsAndMissingInstanceAreRefused :
    detached.device = none ∧ Instr.tick ≠ .attach ∧ Instr.tick ≠ .reserved7 ∧ (∀ low, Instr.tick ≠ .reserved8to15 low) := by
  exact ⟨rfl, by decide, by decide, by decide⟩
theorem witness_UnsupportedDisplayedTickIsRefused :
    let d := displayedTop fun c => { c with mode := 0x1A }
    let s : State := { withDevice d with params := noGraphics640 }
    s.device = some d ∧ d.raster.half = .blank ∧ d.raster.dispOn = true ∧ isUnsupported s.params d = true := by
  exact ⟨rfl, rfl, rfl, by decide +kernel⟩
theorem witness_TickTogglesHalfAndKeepsStores :
    (State.reset.device = some Device.reset ∧ Renders State.reset.params Device.reset) ∧
    ((withDevice (visibleAt 7 31 0)).device = some (visibleAt 7 31 0) ∧ (visibleAt 7 31 0).raster.half = .visible) :=
  ⟨⟨rfl, .inl rfl⟩, rfl, rfl⟩
theorem witness_RenderingTickEmitsExactlyOneLine :
    let d := displayedTop id
    (withDevice d).device = some d ∧ d.raster.half = .blank ∧ Renders Params.reference d := ⟨rfl, rfl, .inr rfl⟩
theorem witness_BorderLineIsFlatAndMovesNoAddress :
    State.reset.device = some Device.reset ∧ Device.reset.raster.half = .blank ∧ Device.reset.raster.dispOn = false :=
  ⟨rfl, rfl, rfl⟩
theorem witness_DisplayedTickUpdatesBoundsAndAddress :
    let d := displayedTop id
    (withDevice d).device = some d ∧ d.raster.half = .blank ∧ d.raster.dispOn = true ∧
      isUnsupported Params.reference d = false := ⟨rfl, rfl, rfl, rfl⟩
/-- A text row and a graphics row. -/
theorem witness_AdvancingTickInsideARowRereadsItsCells :
    (let d := visibleAt 6 3 0
     (withDevice d).device = some d ∧ d.raster.half = .visible ∧ d.raster.adjRem = 0 ∧
      d.raster.scanline.toNat ≠ (if d.regs.mode.getLsbD 0 = true ∨ d.regs.mode.getLsbD 1 = false then 8 else 2) - 1) ∧
    (let d := { visibleAt 0 3 0 with regs := { Regs.reset with mode := 0x1A } }
     (withDevice d).device = some d ∧ d.raster.half = .visible ∧ d.raster.adjRem = 0 ∧
      d.raster.scanline.toNat ≠ (if d.regs.mode.getLsbD 0 = true ∨ d.regs.mode.getLsbD 1 = false then 8 else 2) - 1) :=
  ⟨⟨rfl, rfl, rfl, by decide⟩, rfl, rfl, rfl, by decide⟩
/-- Both clauses: the last pad line and an earlier one. -/
theorem witness_AdvancingTickInVerticalAdjustCountsPadLines :
    ((visibleAt 5 0 1).raster.half = .visible ∧ (visibleAt 5 0 1).raster.adjRem ≠ 0 ∧ (visibleAt 5 0 1).raster.adjRem = 1) ∧
    ((visibleAt 0 0 6).raster.half = .visible ∧ (visibleAt 0 0 6).raster.adjRem ≠ 0 ∧ (visibleAt 0 0 6).raster.adjRem ≠ 1) ∧
    (withDevice (visibleAt 5 0 1)).device = some (visibleAt 5 0 1) := by
  exact ⟨by decide, by decide, rfl⟩
/-- A row's end in each case: an ordinary row, the last displayed row, the row before VSync, the last row with pad lines, and
the last row without. -/
theorem witness_AdvancingTickAtRowEndStepsTheFrame :
    let c := Regs.reset
    let rh : Nat := if c.mode.getLsbD 0 = true ∨ c.mode.getLsbD 1 = false then 8 else 2
    let e : VertEntry := Params.reference.vtab[c.ext[0x65].toNat / 2 ^ Params.reference.resHLsb.val % 4]'(Nat.mod_lt _ (by decide))
    let e0 : VertEntry := noAdjust.vtab[c.ext[0x65].toNat / 2 ^ noAdjust.resHLsb.val % 4]'(Nat.mod_lt _ (by decide))
    (∀ row ∈ [(3 : BitVec 7), 24, 27, 31],
      (visibleAt 7 row 0).raster.half = .visible ∧ (visibleAt 7 row 0).raster.adjRem = 0 ∧
      (visibleAt 7 row 0).raster.scanline.toNat = rh - 1) ∧
    24 + 1 = e.vis / rh ∧ 27 + 1 = e.vsync / rh ∧ 31 = e.endLine / rh - 1 ∧ e.adj ≠ 0 ∧
    31 = e0.endLine / rh - 1 ∧ e0.adj = 0 := by decide +kernel
/-- The clauses: the pulse ends, no pulse runs, and an operation that ends no pulse. -/
theorem witness_VsyncPulseEndFinalisesTheFrame :
    (let d := rasterDevice fun r => { r with half := .visible, vsyncRem := 1 }
     (withDevice d).device = some d ∧ d.raster.half = .visible ∧ d.raster.vsyncRem = 1) ∧
    (let d := visibleAt 0 0 0
     (withDevice d).device = some d ∧ d.raster.half = .visible ∧ d.raster.vsyncRem ≠ 1) ∧
    (∀ d, State.reset.device = some d → ¬ (Instr.tick = .tick ∧ d.raster.half = .visible ∧ d.raster.vsyncRem = 1)) := by
  refine ⟨⟨rfl, rfl, rfl⟩, ⟨rfl, rfl, by decide⟩, ?_⟩
  rintro d ⟨⟩ ⟨-, h, -⟩
  exact absurd h (by decide)
theorem witness_TextCursorLimitsSetAndClearCon :
    (withDevice (visibleAt 7 0 0)).device = some (visibleAt 7 0 0) ∧ (visibleAt 7 0 0).raster.half = .visible := ⟨rfl, rfl⟩
/-- The three clauses of TextCursorLimitsSetAndClearCon, with `curStart = 0` and `curEnd = 7`: entering scanline 0, leaving
scanline 7 for a row whose start is elsewhere, and in between. -/
theorem witness_TextCursorLimitsSetAndClearCon_clauses :
    field (·.raster.con) .tick (withDevice (visibleAt 7 0 0)) = some true ∧
    field (·.raster.con) .tick (withDevice
      { visibleAt 7 0 0 with
        regs := { Regs.reset with crtc := (Regs.reset.crtc.set 10 5).set 11 7 },
        raster := { (visibleAt 7 0 0).raster with con := true } }) = some false ∧
    field (·.raster.con) .tick (withDevice
      { visibleAt 2 0 0 with raster := { (visibleAt 2 0 0).raster with con := true } }) = some true := by decide +kernel
theorem witness_ShadowRefreshCapturesTheNextText80Line :
    (withDevice (visibleAt 2 0 0)).device = some (visibleAt 2 0 0) ∧ (visibleAt 2 0 0).raster.half = .visible := ⟨rfl, rfl⟩
/-- Both clauses of the shadow refresh: a Text80 line ahead, and a Text40 one. -/
theorem witness_ShadowRefreshCapturesTheNextText80Line_clauses :
    field (fun d => (d.raster.dispOn, d.regs.mode.getLsbD 0, d.raster.shadow[0])) .tick
      (withDevice { visibleAt 2 0 0 with regs := { Regs.reset with mode := 0x09 }, vram := [(0, 0x41)] }) =
      some (true, true, 0x41) ∧
    field (fun d => (d.raster.dispOn, d.regs.mode.getLsbD 0, d.raster.shadow[0])) .tick
      (withDevice { visibleAt 2 0 0 with vram := [(0, 0x41)] }) = some (true, false, 0x00) := by decide +kernel
theorem witness_Text80LineIgnoresLateMemWrites :
    let d := displayedTop fun c => { c with mode := 0x09 }
    (withDevice d).device = some d ∧ d.raster.half = .blank ∧ Renders Params.reference d ∧
      Renders Params.reference { d with vram := Memory.write d.vram ((0xB8000 : BitVec 20).toNat % 0x4000) 0x41 } ∧
      d.regs.mode.getLsbD 0 = true := ⟨rfl, rfl, .inr rfl, .inr rfl, by decide⟩
/-- Both variants, the last cell of Text80 at the end of the shadow. -/
theorem witness_TextLinesShowEachGlyphColumn :
    (let d := displayedTop fun c => { c with mode := 0x09 }
     variant d.regs = .text80 ∧ d.raster.shadow[2 * (79 : Fin 80).val]? = some 0 ∧
      d.raster.shadow[2 * (79 : Fin 80).val + 1]? = some 0) ∧
    variant Regs.reset = .text40 := by decide +kernel
/-- The cursor cell and another cell. -/
theorem witness_TextPixelUsesGlyphUnderlineAndCursor :
    let d := { displayedTop id with raster := { (displayedTop id).raster with con := true, cursorBlinkOn := true } }
    ((d.raster.memAddr.toNat + 0) % 0x4000 = (d.regs.crtc[14].toNat * 256 + d.regs.crtc[15].toNat) % 0x4000 ∧
      d.raster.con = true ∧ d.raster.cursorBlinkOn = true) ∧
    (d.raster.memAddr.toNat + 1) % 0x4000 ≠ (d.regs.crtc[14].toNat * 256 + d.regs.crtc[15].toNat) % 0x4000 := by decide +kernel
theorem witness_Graphics320LineShowsTwoBitPixels : variant (regsDevice fun c => { c with mode := 0x0A }).regs = .graphics320 := by
  decide
theorem witness_Graphics640LineShowsOneBitPixels : variant (regsDevice fun c => { c with mode := 0x1A }).regs = .graphics640 := by
  decide
theorem witness_GraphicsLinesIgnoreTextState :
    (variant (regsDevice fun c => { c with mode := 0x12 }).regs).isText = false := by decide
theorem witness_CgaMapFollowsTheAttribute :
    Device.reset.regs.ext[0x66].getLsbD Params.reference.monoBit = false := by decide +kernel
theorem witness_MonoMapFollowsTheTable :
    (regsDevice fun c => { c with ext := c.ext.set 0x66 0x02 }).regs.ext[0x66].getLsbD Params.reference.monoBit = true := by
  decide +kernel
theorem witness_PaletteEntryScalesTheThreeFields :
    Regs.reset.ext[0x40 + 2 * (15 : Fin 16).val]? = some 0x07 ∧ Regs.reset.ext[0x41 + 2 * (15 : Fin 16).val]? = some 0x77 := by
  decide +kernel
/-- The four clauses: above the span (H6), below it (H2), suppressed (H7), neither mask applied (H8). -/
theorem witness_CursorOverlayIsIdentityOutsideItsSpan :
    (0 : Int) * 8 + 0 + 16 - (17 : Byte).toNat < 0 ∧ 15 < (0 : Int) * 8 + 0 + 16 - (0 : Byte).toNat ∧
    (let flags := Regs.reset.ext[0x64]
     (flags.getLsbD Params.reference.curShowBit = false ∧ Device.reset.frame.blinkCounter.getLsbD 3 = false) ∧
     (flags.getLsbD Params.reference.curAndBit = false ∧ flags.getLsbD Params.reference.curXorBit = false)) := by
  decide +kernel
/-- The first and the last row of the span, with the first pixel on a half-column and the last one off it. -/
theorem witness_CursorOverlayAppliesAndThenXor :
    let c := { Regs.reset with ext := ((Regs.reset.ext.set 0x61 0x10).set 0x63 0x10).set 0x64 0x07 }
    let rh : Nat := if c.mode.getLsbD 0 = true ∨ c.mode.getLsbD 1 = false then 8 else 2
    let cursorX : Nat := c.ext[0x60].toNat * 256 + c.ext[0x61].toNat
    let cursorLeft : Int := 2 * ((cursorX : Int) - 16)
    c.ext[0x64].getLsbD Params.reference.curShowBit = true ∧ 0 * rh + 0 + 16 = c.ext[0x63].toNat + (0 : Fin 16).val ∧
    1 * rh + 7 + 16 = c.ext[0x63].toNat + (15 : Fin 16).val ∧
    ((0 : Fin 640).val : Int) = cursorLeft + (0 : Fin 32).val ∧
    ∀ hc : Fin 32, ((639 : Fin 640).val : Int) ≠ cursorLeft + hc.val := by decide +kernel
theorem witness_HostLineFollowsTheDisplayType :
    let shown (t : DisplayType) : Device := { Device.reset with config := { HostConfig.reset with displayType := t } }
    (shown .trueColor).config.displayType = .trueColor ∧ (shown .composite).config.displayType = .composite ∧
    (∀ t ∈ [DisplayType.rgb, .rgbNoBrown, .green],
      (shown t).config.displayType ≠ .trueColor ∧ (shown t).config.displayType ≠ .composite) ∧
    (shown .rgb).config.displayType = .rgb ∧ (shown .rgbNoBrown).config.displayType = .rgbNoBrown ∧
    (shown .green).config.displayType ≠ .rgb ∧ (shown .green).config.displayType ≠ .rgbNoBrown := by decide
/-- A mark that stays, and one that ATTACH clears. -/
theorem witness_RefusalMarkIsSticky :
    let s : State := { State.reset with refused := true }
    s.refused = true ∧ exec .reserved7 s = .next (s.refuse .reservedKind) ∧
    (s.attachIn.allocOk = true ∧ (after .attach s).map (·.refused) = some false) := ⟨rfl, rfl, rfl, by decide +kernel⟩
theorem witness_BusTransactionsNeverMoveTheRaster :
    State.reset.device = some Device.reset ∧ isBusOperation (.memw 0xB8000 0) = true := ⟨rfl, rfl⟩
theorem witness_OnlyMemWriteChangesVideoMemory :
    State.reset.device = some Device.reset ∧ Instr.tick ≠ .attach ∧ Instr.tick ≠ .detach ∧
      ∀ addr v, Instr.tick ≠ .memw addr v := ⟨rfl, by decide, by decide, fun _ _ h => nomatch h⟩
/-- An instance with a byte in its memory has the invariant, and a step of it answers a next state. -/
theorem witness_EveryStepKeepsTheInvariant :
    let s := withDevice { Device.reset with vram := [(1, 0x1F)] }
    s.Inv ∧ (s.withFetchWord 32 0x0003DE57).Inv ∧ ∃ t, step (s.withFetchWord 32 0x0003DE57) = .next t := by
  have h : ({ Device.reset with vram := [(1, 0x1F)] } : Device).Inv Params.reference :=
    ⟨by decide, by unfold PaletteConsistent; decide +kernel, by unfold CrtcMasked; decide +kernel⟩
  exact ⟨fun d hd => by cases hd; exact h, fun d hd => by cases hd; exact h, _, rfl⟩
/-- Each half, in the frame: an advancing TICK at the last line of the frame, and a rendering one in the first. -/
theorem witness_AdvancingTickMovesOneFrameLine :
    (let d := visibleAt 5 0 1
     (withDevice d).device = some d ∧ (vertEntry Params.reference d.regs).wf = true ∧
      InFrame Params.reference d.regs d.raster ∧ d.raster.half = .visible) ∧
    (State.reset.device = some Device.reset ∧ (vertEntry Params.reference Device.reset.regs).wf = true ∧
      InFrame Params.reference Device.reset.regs Device.reset.raster ∧ Renders Params.reference Device.reset) := by
  refine ⟨⟨rfl, by decide +kernel, ?_, rfl⟩, rfl, by decide +kernel, ?_, .inl rfl⟩
  · unfold InFrame; decide +kernel
  · unfold InFrame; decide +kernel
theorem witness_FrameTakesExactlyTotalLines :
    State.reset.device = some Device.reset ∧ (vertEntry Params.reference Device.reset.regs).wf = true ∧
      InFrame Params.reference Device.reset.regs Device.reset.raster ∧ Device.reset.raster.half = .blank ∧
      ∀ m t d', m < 262 → execSeq (pseudoTicks (2 * m)) State.reset = .next t → t.device = some d' →
        Renders State.reset.params d' := by
  refine ⟨rfl, by decide +kernel, ?_, rfl, fun _ _ _ _ _ _ => .inr rfl⟩
  unfold InFrame; decide +kernel
/-- On the last displayed line, and on the last line of the frame whatever the display. -/
theorem witness_AdvancingTickKeepsDisplayOnExactlyVisLines :
    (let d := visibleAt 7 24 0
     let e := vertEntry Params.reference d.regs
     d.raster.half = .visible ∧ e.wf = true ∧ 0 < e.vis ∧ e.vis ≤ e.vsync ∧
      frameLine Params.reference d.regs d.raster = 199 ∧
      d.raster.dispOn = decide (frameLine Params.reference d.regs d.raster < e.vis)) ∧
    (let d := visibleAt 5 0 1
     let e := vertEntry Params.reference d.regs
     d.raster.half = .visible ∧ frameLine Params.reference d.regs d.raster + 1 = e.endLine + e.adj.toNat) ∧
    (withDevice (visibleAt 7 24 0)).device = some (visibleAt 7 24 0) ∧
    InFrame Params.reference (visibleAt 7 24 0).regs (visibleAt 7 24 0).raster ∧
    InFrame Params.reference (visibleAt 5 0 1).regs (visibleAt 5 0 1).raster := by
  refine ⟨by decide +kernel, by decide +kernel, rfl, ?_, ?_⟩
  · unfold InFrame; decide +kernel
  · unfold InFrame; decide +kernel

end Sys2Proof.Tests
end

/-! PROOFS of the family of spec/10_state.md: the invariant at reset (O57), what a bus transaction leaves alone (O54), the
sticky refusal mark (O53), and the colour of a text pixel (O42). -/

namespace Sys2Proof.Machine

/-! ### The invariant at reset -/

/-- Registers that are all 0 have no bit outside their masks, whatever the masks. -/
theorem crtcMasked_of_zero {p : Params} {d : Device} (h : ∀ i : Fin 32, d.regs.crtc[i] = 0) : CrtcMasked p d := by
  intro i
  rw [h i]
  exact BitVec.zero_and

/-- The palette table of R382 is the one the default register pairs give. -/
theorem reset_paletteConsistent : PaletteConsistent Params.reference Device.reset := by
  unfold PaletteConsistent
  decide +kernel

theorem reset_inv : Device.reset.Inv Params.reference where
  memory := Memory.wf_nil
  palette := reset_paletteConsistent
  crtc := crtcMasked_of_zero fun i => by simp [Device.reset, Regs.reset]

/-- Settles O57: the device of the reset state has the invariant. -/
theorem resetMeetsTheInvariant : Obligations.ResetMeetsTheInvariant := by
  unfold Obligations.ResetMeetsTheInvariant
  intro d hd
  cases hd
  exact reset_inv

/-! ### Bus transactions -/

/-- `o` is what an operation on the device of `s` answers that is never refused and leaves the sequencer alone. The state
it runs in may differ from `s` in the count of draws (IN_STATUS, log 13). -/
def KeepsSequencer (s : State) (o : Host.Outcome State Fault Refusal) : Prop :=
  ∃ (s₀ : State) (f : Device → OpResult), o = s₀.onDevice f ∧ s₀.device = s.device ∧ s₀.refused = s.refused ∧
    ∀ d, ∃ d' out, f d = .done d' out ∧ SameSequencer d d'

theorem SameSequencer.refl (d : Device) : SameSequencer d d := ⟨rfl, rfl, rfl⟩

/-- The recomputation of the durations (R202) writes nothing. -/
@[simp] theorem timingRecompute_eq (d : Device) : timingRecompute d = d := rfl

theorem onRegs_keepsSequencer (s : State) (f : Regs → Regs) : KeepsSequencer s (s.onRegs f) :=
  ⟨s, _, rfl, rfl, rfl, fun _ => ⟨_, _, rfl, rfl, rfl, rfl⟩⟩

theorem onRead_keepsSequencer (s : State) (out : Device → List Event) : KeepsSequencer s (s.onRead out) :=
  ⟨s, _, rfl, rfl, rfl, fun d => ⟨_, _, rfl, .refl d⟩⟩

theorem execOutCrtcData_keepsSequencer (portAlias : BitVec 2) (v : Byte) (s : State) :
    KeepsSequencer s (execOutCrtcData portAlias v s) :=
  ⟨s, _, rfl, rfl, rfl, fun d => ⟨{ d with regs := setCrtcData s.params v d.regs }, [], by simp, rfl, rfl, rfl⟩⟩

theorem execOutMode_keepsSequencer (v : Byte) (s : State) : KeepsSequencer s (execOutMode v s) :=
  ⟨s, _, rfl, rfl, rfl, fun _ => ⟨_, _, rfl, rfl, rfl, rfl⟩⟩

theorem execOutExtData_keepsSequencer (v : Byte) (s : State) : KeepsSequencer s (execOutExtData v s) :=
  ⟨s, _, rfl, rfl, rfl, fun _ => ⟨_, _, rfl, rfl, rfl, rfl⟩⟩

theorem execMemw_keepsSequencer (addr : BitVec 20) (v : Byte) (s : State) : KeepsSequencer s (execMemw addr v s) :=
  ⟨s, _, rfl, rfl, rfl, fun _ => ⟨_, _, rfl, rfl, rfl, rfl⟩⟩

/-- IN_STATUS reads after its draw, which touches neither the device nor the mark. -/
theorem execInStatus_keepsSequencer (s : State) : KeepsSequencer s (execInStatus s) :=
  ⟨s.drawn, _, rfl, State.drawn_device s, State.drawn_refused s, fun d => ⟨_, _, rfl, .refl d⟩⟩

/-- R70, said once for the 24 bus transactions: each writes registers only, reads only, or is one of the five above. -/
theorem exec_bus_keepsSequencer {i : Instr} (h : isBusOperation i = true) (s : State) : KeepsSequencer s (exec i s) := by
  cases i with
  | outCrtcData portAlias v => exact execOutCrtcData_keepsSequencer portAlias v s
  | outMode v => exact execOutMode_keepsSequencer v s
  | outExtData v => exact execOutExtData_keepsSequencer v s
  | inStatus => exact execInStatus_keepsSequencer s
  | memw addr v => exact execMemw_keepsSequencer addr v s
  | outColsel v => exact onRegs_keepsSequencer s fun c => { c with colorSelect := v }
  | outExtIndex v => exact onRegs_keepsSequencer s fun c => { c with extIndex := wrapExt v.toNat }
  | outCrtcIndex | outNop3da | outNop3db | outNop3dc | outReserved | iowUnclaimed =>
    exact onRegs_keepsSequencer s _
  | inCrtcIndex | inCrtcData | inFf3d0 | inFf3d6 | inFf3d8 | inFf3db | inFf3dc | iorUnclaimed | memr | memwUnclaimed
  | memrUnclaimed => exact onRead_keepsSequencer s _
  | tick | attach | detach | reserved7 | reserved8to15 => cases h

/-- Settles O54: the answer of a bus transaction is a commit of a device with the same sequencer. -/
theorem busTransactionsNeverMoveTheRaster : Obligations.BusTransactionsNeverMoveTheRaster := by
  unfold Obligations.BusTransactionsNeverMoveTheRaster
  intro i s d hd hbus
  obtain ⟨s₀, f, hexec, hdev, href, hf⟩ := exec_bus_keepsSequencer hbus s
  obtain ⟨d', out, hfd, hsame⟩ := hf d
  refine ⟨s₀.commit d' out, d', ?_, rfl, hsame, href⟩
  rw [hexec, onDevice_some (hdev.trans hd), hfd, State.finish]

/-! ### The refusal mark -/

/-- The mark survives every bus transaction. -/
theorem exec_bus_refused {i : Instr} {s t : State} (hbus : isBusOperation i = true) (h : s.refused = true)
    (hx : exec i s = .next t) : t.refused = true := by
  obtain ⟨s₀, f, hexec, -, href, -⟩ := exec_bus_keepsSequencer hbus s
  exact onDevice_refused (href.trans h) (hexec.symm.trans hx)

/-- DETACH never clears the mark (log 8). -/
theorem execDetach_refused {s t : State} (h : s.refused = true) (hx : execDetach s = .next t) : t.refused = true := by
  unfold execDetach at hx
  split at hx
  · cases hx; rfl
  · cases hx; exact h

/-- ATTACH clears the mark exactly when the host's allocation succeeds (R600, log 7). -/
theorem execAttach_refused {s t : State} (hx : execAttach s = .next t) :
    t.refused = (s.refused && !s.attachIn.allocOk) := by
  unfold execAttach at hx
  split at hx
  · next hok => cases hx; simp [hok]
  · next hok => cases hx; simp [hok]

/-- Settles O53, by the kind of the operation: only ATTACH writes `false` to the mark. -/
theorem refusalMarkIsSticky : Obligations.RefusalMarkIsSticky := by
  unfold Obligations.RefusalMarkIsSticky
  intro i s t h hx
  cases hbus : isBusOperation i with
  | true => exact .inl (exec_bus_refused hbus h hx)
  | false =>
    cases i with
    | tick => exact .inl (onDevice_refused h hx)
    | detach => exact .inl (execDetach_refused h hx)
    | reserved7 | reserved8to15 => cases hx; exact .inl rfl
    | attach =>
      have ht := execAttach_refused hx
      cases hok : s.attachIn.allocOk with
      | true => exact .inr ⟨rfl, rfl, by simp [ht, hok]⟩
      | false => exact .inl (by simp [ht, h, hok])
    | _ => cases hbus

/-! ### A text pixel -/

/-- The text-cursor cell (R417) from the CRTC bytes. -/
theorem drawCursor_iff (d : Device) (i : Nat) :
    drawCursor d i = true ↔
      (d.raster.memAddr.toNat + i) % 0x4000 = (d.regs.crtc[14].toNat * 256 + d.regs.crtc[15].toNat) % 0x4000 ∧
        d.raster.con = true ∧ d.raster.cursorBlinkOn = true := by
  simp only [drawCursor, textCursorAddr_toNat, Bool.and_eq_true, decide_eq_true_eq, and_assoc]

/-- The low 3 bits of a cell's attr byte as a number (R328). -/
theorem lowThreeBits_eq_one_iff (attr : Byte) : attr.extractLsb' 0 3 = 1 ↔ attr.toNat % 8 = 1 := by
  simp [← BitVec.toNat_inj]

/-- The last row of a glyph, by the effective scanline as a number (R327, R328). -/
theorem glyphLine_eq_seven_iff (es : BitVec 5) : es.setWidth 3 = 7 ↔ es.toNat % 8 = 7 := by
  simp [← BitVec.toNat_inj]

/-- Every column of an underline row is lit. -/
theorem underlineRow_getLsbD (b : Fin 8) : (0xFF : Byte).getLsbD (7 - b.val) = true := by
  revert b
  decide

/-- When a glyph column is lit: the row is an emulated underline, or the font's byte has the bit (R327, R328, R43). -/
theorem glyphRow_getLsbD_iff (p : Params) (d : Device) (chr attr : Byte) (b : Fin 8) :
    (glyphRow p d { chr := chr, attr := attr }).getLsbD (7 - b.val) = true ↔
      (d.regs.ext[0x66].getLsbD p.ulBit = true ∧ attr.toNat % 8 = 1 ∧ (effectiveScanline p d).toNat % 8 = 7) ∨
      (fontByte p chr (d.regs.ext[0x66].getLsbD p.fontBankBit)
        (BitVec.ofNat 3 (effectiveScanline p d).toNat)).getLsbD (7 - b.val) = true := by
  rw [← lowThreeBits_eq_one_iff, ← glyphLine_eq_seven_iff, BitVec.ofNat_toNat]
  simp only [glyphRow, underlineOn, fontBank, Bool.and_eq_true, decide_eq_true_eq, and_assoc]
  split
  · next hul => exact iff_of_true (underlineRow_getLsbD b) (.inl hul)
  · next hul => exact (or_iff_right hul).symm

/-- The effective scanline from the register bytes (R324, R42). -/
theorem effectiveScanline_toNat_bytes (p : Params) (d : Device) :
    (effectiveScanline p d).toNat =
      if p.interlaced[d.regs.ext[0x65].toNat / 2 ^ p.resHLsb.val % 4]'(Nat.mod_lt _ (by decide)) = true
      then (2 * d.raster.scanline.toNat + d.frame.oddEven.toNat) % 32 else d.raster.scanline.toNat := by
  rw [effectiveScanline_toNat, isInterlaced_eq]

/-- Settles O42: whether the column is lit decides between foreground and background, and whether the cell is the
text-cursor cell decides on the inversion. -/
theorem textPixelUsesGlyphUnderlineAndCursor : Obligations.TextPixelUsesGlyphUnderlineAndCursor := by
  unfold Obligations.TextPixelUsesGlyphUnderlineAndCursor
  intro p d i chr attr b
  simp only [← effectiveScanline_toNat_bytes, ← drawCursor_iff, ← glyphRow_getLsbD_iff, textPixel]
  constructor <;> intro hcursor
  · rw [if_pos hcursor, hcursor]
  · rw [if_neg hcursor, Bool.eq_false_of_not_eq_true hcursor]

end Sys2Proof.Machine

/-! PROOFS of the family of spec/20_memory.md: decoded words are well-formed (O4), a memory read after a write (O23), the late
memory write in Text80 (O39), what writes the video memory (O55), and one step of the sequence (O1). -/

namespace Sys2Proof

/-! ### Decoded words are well-formed -/

/-- The claimed ports (R101) by their low digit. -/
theorem portClaimed_iff (port : BitVec 16) : portClaimed port = true ↔ ∃ low : BitVec 4, port = 0x3D#12 ++ low := by
  have hnat (low : BitVec 4) : (0x3D#12 ++ low).toNat = 0x3D0 + low.toNat := by
    revert low
    decide
  simp only [portClaimed, Bool.and_eq_true, decide_eq_true_eq, ← BitVec.toNat_inj, hnat]
  constructor
  · rintro ⟨hlo, hhi⟩
    exact ⟨BitVec.ofNat 4 (port.toNat - 0x3D0), by rw [BitVec.toNat_ofNat]; omega⟩
  · rintro ⟨low, hlow⟩
    omega

/-- A case split over the ports: the unclaimed ones, and the claimed ones by their low digit. -/
theorem port_cases {P : BitVec 16 → Prop} (unclaimed : ∀ port, portClaimed port = false → P port)
    (claimed : ∀ low : BitVec 4, P (0x3D#12 ++ low)) (port : BitVec 16) : P port := by
  cases hport : portClaimed port with
  | false => exact unclaimed port hport
  | true =>
    obtain ⟨low, rfl⟩ := (portClaimed_iff port).mp hport
    exact claimed low

/-- A port stands in the I/O write map (R145) or is outside the claimed ones. -/
theorem port_in_write_map_or_unclaimed (port : BitVec 16) :
    port &&& 0xFFF9 = 0x3D0 ∨ port &&& 0xFFF9 = 0x3D1 ∨ port = 0x3D8 ∨ port = 0x3D9 ∨ port = 0x3DA ∨ port = 0x3DB ∨
      port = 0x3DC ∨ port = 0x3DD ∨ port = 0x3DE ∨ port = 0x3DF ∨ portClaimed port = false := by
  cases port using port_cases with
  | unclaimed port hport => simp only [hport, or_true]
  | claimed low => revert low; decide

/-- A port stands in the I/O read map (R146) or is outside the claimed ones. -/
theorem port_in_read_map_or_unclaimed (port : BitVec 16) :
    port = 0x3D4 ∨ port = 0x3D5 ∨ port = 0x3DA ∨ port &&& 0xFFFC = 0x3D0 ∨ port &&& 0xFFFE = 0x3D6 ∨
      port &&& 0xFFFE = 0x3D8 ∨ port = 0x3DB ∨ port &&& 0xFFFC = 0x3DC ∨ portClaimed port = false := by
  cases port using port_cases with
  | unclaimed port hport => simp only [hport, or_true]
  | claimed low => revert low; decide

/-- Only the fallback row of the write map has a condition, and the ports of the map do not reach it. -/
theorem decodeIow_wf (win : Window) (port : BitVec 16) (v : Byte) : (decodeIow port v).wf win = true := by
  simp only [decodeIow, apply_ite (Instr.wf win)]
  simp only [Instr.wf, Bool.if_true_left, Bool.or_eq_true, decide_eq_true_eq, Bool.not_eq_true']
  exact port_in_write_map_or_unclaimed port

/-- Likewise for the read map. -/
theorem decodeIor_wf (win : Window) (port : BitVec 16) : (decodeIor port).wf win = true := by
  simp only [decodeIor, apply_ite (Instr.wf win)]
  simp only [Instr.wf, Bool.if_true_left, Bool.or_eq_true, decide_eq_true_eq, Bool.not_eq_true']
  exact port_in_read_map_or_unclaimed port

theorem decodeMemw_wf (win : Window) (addr : BitVec 20) (v : Byte) : (decodeMemw win addr v).wf win = true := by
  unfold decodeMemw
  split <;> simp_all [Instr.wf]

theorem decodeMemr_wf (win : Window) (addr : BitVec 20) : (decodeMemr win addr).wf win = true := by
  unfold decodeMemr
  split <;> simp_all [Instr.wf]

/-- Settles O4, by the kind of the word: the four bus kinds by their maps, and the other rows have no condition. -/
theorem everyWordDecodesToAWellFormedInstruction : Obligations.EveryWordDecodesToAWellFormedInstruction := by
  unfold Obligations.EveryWordDecodesToAWellFormedInstruction
  intro win w
  unfold decodeWord
  split_ifs
  · exact decodeIow_wf win _ _
  · exact decodeIor_wf win _
  · exact decodeMemw_wf win _ _
  · exact decodeMemr_wf win _
  all_goals rfl

end Sys2Proof

namespace Sys2Proof.Machine

/-! ### Memory transactions -/

/-- MEMW on a device (R213), the offset as R102 gives it. -/
theorem exec_memw {s : State} {d : Device} (h : s.device = some d) (addr : BitVec 20) (v : Byte) :
    exec (.memw addr v) s = .next
      (s.commit { d with vram := Memory.write d.vram (addr.toNat % 0x4000) v } [.waitCharge Config.memWait]) := by
  rw [← vramOffset_eq]
  exact onDevice_some h _

/-- MEMR on a device (R214). -/
theorem exec_memr {s : State} {d : Device} (h : s.device = some d) (addr : BitVec 20) :
    exec (.memr addr) s = .next
      (s.commit d [.waitCharge Config.memWait, .read (d.vramAt (addr.toNat % 0x4000))]) := by
  rw [← vramOffset_eq]
  exact onRead_some h _

/-- Settles O23: both transactions reduce their address mod 0x4000, and the store is a read-after-write memory. -/
theorem memReadAfterWriteSeesAliases : Obligations.MemReadAfterWriteSeesAliases := by
  unfold Obligations.MemReadAfterWriteSeesAliases
  intro s d a b v hd hwf
  refine ⟨_, (execSeq_cons (exec_memw hd a v) _).trans (execSeq_cons (exec_memr rfl b) _), ?_⟩
  simp only [State.commit_events, Device.vramAt, Memory.read_write hwf, List.append_assoc, List.cons_append,
    List.nil_append]

/-! ### The line of a rendering TICK -/

/-- The line a rendering TICK draws: the displayed line, or the border with the display off (R264). -/
def tickLine (p : Params) (d : Device) : Line :=
  if d.raster.dispOn then displayedLine p d else borderFill d.regs

/-- A rendering TICK that is not refused emits its line and nothing else (R264, R266). -/
theorem execTick_rendering {s : State} {d : Device} (h : s.device = some d) (hh : d.raster.half = .blank)
    (hr : Renders s.params d) :
    ∃ t, exec .tick s = .next t ∧
      t.events = s.events ++ [.line d.raster.displayLine (tickLine s.params d) d.regs.mode] := by
  cases hdisp : d.raster.dispOn with
  | false => exact ⟨_, execTick_border h hh hdisp, by simp [finish_emitLine, tickLine, hdisp]⟩
  | true =>
    have hsup : isUnsupported s.params d = false := hr.resolve_left (by simp [hdisp])
    refine ⟨_, execTick_displayed h hh hdisp hsup, ?_⟩
    rw [finish_emitLine, displayedLine_displayedDevice, tickLine, if_pos hdisp]
    rfl

theorem variant_text80 {c : Regs} (h : c.mode.getLsbD 0 = true) : variant c = .text80 := if_pos h

/-- A Text80 line is drawn from the shadow (R325): it is the same whatever the video memory holds. -/
theorem renderLine_text80_vram {d : Device} (h : variant d.regs = .text80) (p : Params) (m : List Host.Cell) :
    renderLine p { d with vram := m } = renderLine p d := by
  have hpixel : renderPixel p { d with vram := m } = renderPixel p d := by
    funext x
    simp only [renderPixel, h]
    rfl
  rw [renderLine, renderLine, hpixel]

/-- Neither the gate, the border nor the hardware cursor reads the video memory. -/
theorem tickLine_text80_vram {d : Device} (h : variant d.regs = .text80) (p : Params) (m : List Host.Cell) :
    tickLine p { d with vram := m } = tickLine p d := by
  simp only [tickLine, displayedLine, renderLine_text80_vram h]
  rfl

/-- Settles O39: the TICK after the MEMW draws the same line, from the shadow. -/
theorem text80LineIgnoresLateMemWrites : Obligations.Text80LineIgnoresLateMemWrites := by
  unfold Obligations.Text80LineIgnoresLateMemWrites
  intro s d addr v hd hhalf hr hr' hmode
  obtain ⟨t, htick, hevents⟩ := execTick_rendering hd hhalf hr
  let s' := s.commit { d with vram := Memory.write d.vram (addr.toNat % 0x4000) v } [.waitCharge Config.memWait]
  obtain ⟨t', htick', hevents'⟩ := execTick_rendering (s := s') rfl hhalf hr'
  refine ⟨t, t', _, htick, ?_, hevents, ?_⟩
  · rw [execSeq_cons (exec_memw hd addr v), execSeq_cons htick', execSeq_nil]
  · rw [hevents', tickLine_text80_vram (variant_text80 hmode)]
    simp [s']

/-! ### What writes the video memory -/

/-- A TICK that is not refused leaves the stores of the device alone (R263). -/
theorem tickDevice_sameStores {p : Params} {d d' : Device} {out : List Event} (h : tickDevice p d = .done d' out) :
    SameStores d d' := by
  unfold tickDevice at h
  split at h
  · unfold enterVisible at h
    split_ifs at h <;> cases h <;> exact ⟨rfl, rfl, rfl, rfl⟩
  · rw [enterBlank, vsyncCountdown_eq] at h
    cases h
    exact ⟨rfl, rfl, rfl, rfl⟩

/-- `o` is a next state that has a device with the video memory of `d`. -/
def KeepsVram (d : Device) (o : Host.Outcome State Fault Refusal) : Prop :=
  ∃ t d', o = .next t ∧ t.device = some d' ∧ d'.vram = d.vram

/-- A refusal keeps the device, so an operation of the device keeps the memory when its effect does. -/
theorem onDevice_keepsVram {s : State} {d : Device} (h : s.device = some d) {f : Device → OpResult}
    (hf : ∀ d' out, f d = .done d' out → d'.vram = d.vram) : KeepsVram d (s.onDevice f) := by
  rw [onDevice_some h]
  cases hfd : f d with
  | done d' out => exact ⟨_, d', rfl, rfl, hf d' out hfd⟩
  | refuse reason => exact ⟨_, d, rfl, h, rfl⟩

theorem onRegs_keepsVram {s : State} {d : Device} (h : s.device = some d) (f : Regs → Regs) :
    KeepsVram d (s.onRegs f) := ⟨_, _, onRegs_some h f, rfl, rfl⟩

theorem onRead_keepsVram {s : State} {d : Device} (h : s.device = some d) (out : Device → List Event) :
    KeepsVram d (s.onRead out) := ⟨_, d, onRead_some h out, rfl, rfl⟩

theorem refuse_keepsVram {s : State} {d : Device} (h : s.device = some d) (reason : RefuseReason) :
    KeepsVram d (.next (s.refuse reason)) := ⟨_, d, rfl, h, rfl⟩

/-- R103, R213, said once for every operation that is neither a MEMW nor of the lifecycle. -/
theorem exec_keepsVram {i : Instr} {s : State} {d : Device} (h : s.device = some d) (hattach : i ≠ .attach)
    (hdetach : i ≠ .detach) (hmemw : ∀ addr v, i ≠ .memw addr v) : KeepsVram d (exec i s) := by
  cases i with
  | memw addr v => exact absurd rfl (hmemw addr v)
  | attach => exact absurd rfl hattach
  | detach => exact absurd rfl hdetach
  | tick => exact onDevice_keepsVram h fun _ _ hdone => (tickDevice_sameStores hdone).vram
  | reserved7 | reserved8to15 => exact refuse_keepsVram h _
  | outCrtcData portAlias v =>
    exact onDevice_keepsVram h fun _ _ hdone => by cases hdone; simp
  | outMode | outExtData => exact onDevice_keepsVram h fun _ _ hdone => by cases hdone; rfl
  | outColsel v => exact onRegs_keepsVram h fun c => { c with colorSelect := v }
  | outExtIndex v => exact onRegs_keepsVram h fun c => { c with extIndex := wrapExt v.toNat }
  | outCrtcIndex | outNop3da | outNop3db | outNop3dc | outReserved | iowUnclaimed => exact onRegs_keepsVram h _
  | inStatus => exact onRead_keepsVram ((State.drawn_device s).trans h) _
  | inCrtcIndex | inCrtcData | inFf3d0 | inFf3d6 | inFf3d8 | inFf3db | inFf3dc | iorUnclaimed | memr | memwUnclaimed
  | memrUnclaimed => exact onRead_keepsVram h _

/-- Settles O55: the whole store is kept, so every byte of it is. -/
theorem onlyMemWriteChangesVideoMemory : Obligations.OnlyMemWriteChangesVideoMemory := by
  unfold Obligations.OnlyMemWriteChangesVideoMemory
  intro i s d hd hattach hdetach hmemw
  obtain ⟨t, d', hexec, hdev, hvram⟩ := exec_keepsVram hd hattach hdetach hmemw
  exact ⟨t, d', hexec, hdev, fun a => by rw [Device.vramAt, Device.vramAt, hvram]⟩

/-! ### One step of the sequence -/

/-- When an operation may run: no refusal is marked, or it is an ATTACH (R72, R506). -/
theorem mayRun_iff (s : State) (i : Instr) : s.mayRun i = true ↔ s.refused = false ∨ i = .attach := by
  simp [State.mayRun]

/-- A step takes the head operation and applies it (R107, R108). -/
theorem step_of_pending {s : State} {op : HostOp} {rest : List HostOp} (hp : s.pending = op :: rest)
    (hrun : s.mayRun (decodeWord s.params.window op.word) = true) :
    step s = exec (decodeWord s.params.window op.word) (s.accept op rest) := by
  simp only [step, hp, if_pos hrun]

/-- Taking an issued word off the sequence gives the state back (log 2). -/
theorem accept_issue (s : State) (w : Word) : (s.issue w).accept { word := w, attach := none } s.pending = s := rfl

/-- Settles O1: a step that may run accepts the head operation, and a fetched word is the head operation. -/
theorem stepRunsTheDecodedOperation : Obligations.StepRunsTheDecodedOperation := by
  unfold Obligations.StepRunsTheDecodedOperation
  refine ⟨fun s op rest hp hrun => step_of_pending hp ((mayRun_iff s _).mpr hrun), fun s nbits w href => ?_⟩
  have hrun : (s.issue (BitVec.ofNat 32 w)).refused = false := href
  exact (step_of_pending rfl ((mayRun_iff _ _).mpr (.inl hrun))).trans (by rw [accept_issue]; rfl)

end Sys2Proof.Machine

/-! PROOFS of the family of spec/30_encoding.md: decode after encode (O3), encode after decode (O5), the opcode table (O6),
and the CRTC ports' aliases (O7). -/

namespace Sys2Proof

/-! ### The decoder on encoded words -/

@[simp] theorem decodeWord_encodeIow (win : Window) (port : BitVec 16) (v : Byte) :
    decodeWord win (encodeIow port v) = decodeIow port v := by
  simp [decodeWord]

@[simp] theorem decodeWord_encodeIor (win : Window) (port : BitVec 16) :
    decodeWord win (encodeIor port) = decodeIor port := by
  simp [decodeWord]

@[simp] theorem decodeWord_encodeMemw (win : Window) (addr : BitVec 20) (v : Byte) :
    decodeWord win (encodeMemw addr v) = decodeMemw win addr v := by
  simp [decodeWord]

@[simp] theorem decodeWord_encodeMemr (win : Window) (addr : BitVec 20) :
    decodeWord win (encodeMemr addr) = decodeMemr win addr := by
  simp [decodeWord]

/-- Kinds 8-15 are one row, their three low bits its operand (R149). -/
theorem decodeWord_of_reserved (win : Window) {w : Word} (h : 8 ≤ wordKind w) :
    decodeWord win w = .reserved8to15 ((wordKind w).extractLsb' 0 3) := by
  have hne {k : BitVec 4} (hk : k < 8) : wordKind w ≠ k := by bv_omega
  simp [decodeWord, hne]

/-! ### The ports of the I/O maps -/

/-- A claimed port is one whose upper twelve bits are 0x3D (R101). -/
theorem portClaimed_of_and {port : BitVec 16} (h : port &&& 0xFFF0 = 0x3D0) : portClaimed port = true := by
  refine (portClaimed_iff port).mpr ⟨port.extractLsb' 0 4, ?_⟩
  have hhigh : port.extractLsb' 4 12 = 0x3D#12 :=
    calc port.extractLsb' 4 12 = (port &&& 0xFFF0).extractLsb' 4 12 := by
          rw [BitVec.extractLsb'_and]
          exact BitVec.and_allOnes.symm
      _ = 0x3D#12 := by rw [h]; rfl
  rw [← hhigh, BitVec.extractLsb'_append_extractLsb'_eq_extractLsb' (start₂ := 4) rfl, BitVec.extractLsb'_eq_self]

/-- A port that a test of an I/O map accepts is claimed: every test reads the upper twelve bits (R145, R146). -/
theorem portClaimed_of_and_eq {port mask low : BitVec 16} (h : port &&& mask = low) (hmask : mask &&& 0xFFF0 = 0xFFF0)
    (hlow : low &&& 0xFFF0 = 0x3D0) : portClaimed port = true :=
  portClaimed_of_and (by rw [← hmask, ← BitVec.and_assoc, h, hlow])

theorem and_ne_of_unclaimed {port : BitVec 16} (hport : portClaimed port = false) {mask low : BitVec 16}
    (hmask : mask &&& 0xFFF0 = 0xFFF0) (hlow : low &&& 0xFFF0 = 0x3D0) : port &&& mask ≠ low := fun h => by
  simp [portClaimed_of_and_eq h hmask hlow] at hport

theorem ne_of_unclaimed {port : BitVec 16} (hport : portClaimed port = false) {low : BitVec 16}
    (hlow : low &&& 0xFFF0 = 0x3D0) : port ≠ low := fun h => by
  simp [portClaimed_of_and (h ▸ hlow)] at hport

/-- An unclaimed port selects the fallback row of the write map. -/
theorem decodeIow_of_unclaimed {port : BitVec 16} (hport : portClaimed port = false) (v : Byte) :
    decodeIow port v = .iowUnclaimed port v := by
  simp [decodeIow, and_ne_of_unclaimed hport, ne_of_unclaimed hport]

/-- An unclaimed port selects the fallback row of the read map. -/
theorem decodeIor_of_unclaimed {port : BitVec 16} (hport : portClaimed port = false) :
    decodeIor port = .iorUnclaimed port := by
  simp [decodeIor, and_ne_of_unclaimed hport, ne_of_unclaimed hport]

/-- The mirrored index row reads its operand `al` back from each of its ports (R144). -/
theorem decodeIow_crtcIndex (al : BitVec 2) (v : Byte) :
    decodeIow (0x3D0 ||| al.setWidth 16 <<< 1) v = .outCrtcIndex al v := by
  have hmask : (0x3D0 ||| al.setWidth 16 <<< 1) &&& 0xFFF9 = (0x3D0 : BitVec 16) := by revert al; decide
  have halias : (0x3D0 ||| al.setWidth 16 <<< 1 : BitVec 16).extractLsb' 1 2 = al := by revert al; decide
  rw [decodeIow, if_pos hmask, halias]

/-- Likewise the mirrored data row, whose ports fail the index row's test. -/
theorem decodeIow_crtcData (al : BitVec 2) (v : Byte) :
    decodeIow (0x3D1 ||| al.setWidth 16 <<< 1) v = .outCrtcData al v := by
  have hmask : (0x3D1 ||| al.setWidth 16 <<< 1) &&& 0xFFF9 = (0x3D1 : BitVec 16) := by revert al; decide
  have halias : (0x3D1 ||| al.setWidth 16 <<< 1 : BitVec 16).extractLsb' 1 2 = al := by revert al; decide
  rw [decodeIow, if_neg (by rw [hmask]; decide), if_pos hmask, halias]

/-- The read rows with several ports read their operand `al` back. -/
theorem decodeIor_ff3d0 (al : BitVec 2) : decodeIor (0x3D0 ||| al.setWidth 16) = .inFf3d0 al := by revert al; decide
theorem decodeIor_ff3d6 (al : BitVec 1) : decodeIor (0x3D6 ||| al.setWidth 16) = .inFf3d6 al := by revert al; decide
theorem decodeIor_ff3d8 (al : BitVec 1) : decodeIor (0x3D8 ||| al.setWidth 16) = .inFf3d8 al := by revert al; decide
theorem decodeIor_ff3dc (al : BitVec 2) : decodeIor (0x3DC ||| al.setWidth 16) = .inFf3dc al := by revert al; decide

/-- Settles O3, by the row: the word's kind and fields give the row's map back its port or address. -/
theorem decodeOfEncodeIsTheInstruction : Obligations.DecodeOfEncodeIsTheInstruction := by
  unfold Obligations.DecodeOfEncodeIsTheInstruction
  intro win i hwf
  cases i with
  | outCrtcIndex al v => exact (decodeWord_encodeIow ..).trans (decodeIow_crtcIndex al v)
  | outCrtcData al v => exact (decodeWord_encodeIow ..).trans (decodeIow_crtcData al v)
  | outMode | outColsel | outNop3da | outNop3db | outNop3dc | outExtIndex | outExtData | outReserved =>
    exact decodeWord_encodeIow ..
  | iowUnclaimed port v => exact (decodeWord_encodeIow ..).trans (decodeIow_of_unclaimed (by simpa [Instr.wf] using hwf) v)
  | inCrtcIndex | inCrtcData | inStatus | inFf3db => exact decodeWord_encodeIor ..
  | inFf3d0 al => exact (decodeWord_encodeIor ..).trans (decodeIor_ff3d0 al)
  | inFf3d6 al => exact (decodeWord_encodeIor ..).trans (decodeIor_ff3d6 al)
  | inFf3d8 al => exact (decodeWord_encodeIor ..).trans (decodeIor_ff3d8 al)
  | inFf3dc al => exact (decodeWord_encodeIor ..).trans (decodeIor_ff3dc al)
  | iorUnclaimed port => exact (decodeWord_encodeIor ..).trans (decodeIor_of_unclaimed (by simpa [Instr.wf] using hwf))
  | memw addr v => exact (decodeWord_encodeMemw ..).trans (if_pos hwf)
  | memwUnclaimed addr v => exact (decodeWord_encodeMemw ..).trans (if_neg (by simpa [Instr.wf] using hwf))
  | memr addr => exact (decodeWord_encodeMemr ..).trans (if_pos hwf)
  | memrUnclaimed addr => exact (decodeWord_encodeMemr ..).trans (if_neg (by simpa [Instr.wf] using hwf))
  | tick | attach | detach | reserved7 => rfl
  | reserved8to15 low =>
    have hbits : (8#4 ||| low.setWidth 4).extractLsb' 0 3 = low := by clear hwf; revert low; decide
    have hkind : 8 ≤ wordKind (encode (.reserved8to15 low)) := by
      rw [wordKind_reserved8to15]; clear hwf hbits; revert low; decide
    rw [decodeWord_of_reserved win hkind, wordKind_reserved8to15]
    exact congrArg _ hbits

/-! ### The CRTC ports -/

theorem decodeIow_eq_outCrtcIndex_iff (port : BitVec 16) (v : Byte) :
    (∃ al, decodeIow port v = .outCrtcIndex al v) ↔ port &&& 0xFFF9 = 0x3D0 := by
  unfold decodeIow
  split_ifs <;> simp_all

theorem decodeIow_eq_outCrtcData_iff (port : BitVec 16) (v : Byte) :
    (∃ al, decodeIow port v = .outCrtcData al v) ↔ port &&& 0xFFF9 = 0x3D1 := by
  unfold decodeIow
  split_ifs <;> simp_all

theorem decodeIor_eq_inCrtcIndex_iff (port : BitVec 16) : decodeIor port = .inCrtcIndex ↔ port = 0x3D4 := by
  unfold decodeIor
  split_ifs <;> simp_all

theorem decodeIor_eq_inCrtcData_iff (port : BitVec 16) : decodeIor port = .inCrtcData ↔ port = 0x3D5 := by
  unfold decodeIor
  split_ifs <;> simp_all

/-- Settles O7: each of the four rows is characterised by its port test in the map. -/
theorem crtcPortsAreMirroredForWritesOnly : Obligations.CrtcPortsAreMirroredForWritesOnly := by
  unfold Obligations.CrtcPortsAreMirroredForWritesOnly
  intro win port v
  simp only [decodeWord_encodeIow, decodeWord_encodeIor, decodeIow_eq_outCrtcIndex_iff, decodeIow_eq_outCrtcData_iff,
    decodeIor_eq_inCrtcIndex_iff, decodeIor_eq_inCrtcData_iff, and_self]

/-! ### A word and its fields -/

theorem word_eq_append (w : Word) : w = wordKind w ++ wordAddr w ++ wordData w := by
  unfold wordKind wordAddr wordData
  rw [BitVec.extractLsb'_append_extractLsb'_eq_extractLsb' (start₂ := 28) rfl,
    BitVec.extractLsb'_append_extractLsb'_eq_extractLsb' (start₂ := 8) rfl, BitVec.extractLsb'_eq_self]

/-- A word read through a mask, field by field. -/
theorem and_append_mask (w : Word) (kind : BitVec 4) (addr : BitVec 20) (data : Byte) :
    w &&& (kind ++ addr ++ data) = (wordKind w &&& kind) ++ (wordAddr w &&& addr) ++ (wordData w &&& data) := by
  conv_lhs => rw [word_eq_append w]
  rw [BitVec.and_append, BitVec.and_append]

/-- The port is the low part of the address field (R142). -/
theorem wordAddr_and_portMask (w : Word) : wordAddr w &&& 0x0FFFF#20 = (wordPort w).setWidth 20 := by
  unfold wordAddr wordPort
  ext j hj
  interval_cases j <;> simp

theorem wordAddr_encodeIow (port : BitVec 16) (v : Byte) : wordAddr (encodeIow port v) = port.setWidth 20 := by
  unfold wordAddr encodeIow
  ext j hj
  interval_cases j <;> simp

theorem wordAddr_encodeIor (port : BitVec 16) : wordAddr (encodeIor port) = port.setWidth 20 := by
  unfold wordAddr encodeIor
  ext j hj
  interval_cases j <;> simp

theorem wordData_encodeIor (port : BitVec 16) : wordData (encodeIor port) = 0 := by
  unfold wordData encodeIor
  ext j hj
  interval_cases j <;> simp

theorem wordData_encodeMemr (addr : BitVec 20) : wordData (encodeMemr addr) = 0 := by
  unfold wordData encodeMemr
  ext j hj
  interval_cases j <;> simp

theorem encodeIow_eq_append (port : BitVec 16) (v : Byte) : encodeIow port v = 0#4 ++ port.setWidth 20 ++ v := by
  rw [word_eq_append (encodeIow port v), wordKind_encodeIow, wordAddr_encodeIow, wordData_encodeIow]
  rfl

theorem encodeIor_eq_append (port : BitVec 16) : encodeIor port = 1#4 ++ port.setWidth 20 ++ 0#8 := by
  rw [word_eq_append (encodeIor port), wordKind_encodeIor, wordAddr_encodeIor, wordData_encodeIor]
  rfl

theorem encodeMemw_eq_append (addr : BitVec 20) (v : Byte) : encodeMemw addr v = 2#4 ++ addr ++ v := by
  rw [word_eq_append (encodeMemw addr v), wordKind_encodeMemw, wordAddr_encodeMemw, wordData_encodeMemw]
  rfl

theorem encodeMemr_eq_append (addr : BitVec 20) : encodeMemr addr = 3#4 ++ addr ++ 0#8 := by
  rw [word_eq_append (encodeMemr addr), wordKind_encodeMemr, wordAddr_encodeMemr, wordData_encodeMemr]
  rfl

/-! ### Encode after decode -/

/-- The bits of an I/O write word that are read (R140). -/
theorem and_iowMask (w : Word) : w &&& 0xF0FFFFFF = wordKind w ++ (wordPort w).setWidth 20 ++ wordData w := by
  rw [show (0xF0FFFFFF : Word) = BitVec.allOnes 4 ++ 0x0FFFF#20 ++ BitVec.allOnes 8 from rfl, and_append_mask,
    BitVec.and_allOnes, BitVec.and_allOnes, wordAddr_and_portMask]

/-- The bits of an I/O read word that are read (R140). -/
theorem and_iorMask (w : Word) : w &&& 0xF0FFFF00 = wordKind w ++ (wordPort w).setWidth 20 ++ 0#8 := by
  rw [show (0xF0FFFF00 : Word) = BitVec.allOnes 4 ++ 0x0FFFF#20 ++ 0#8 from rfl, and_append_mask, BitVec.and_allOnes,
    wordAddr_and_portMask, BitVec.and_zero]

/-- The bits of a memory write word that are read (R140): all of them. -/
theorem and_memwMask (w : Word) : w &&& 0xFFFFFFFF = wordKind w ++ wordAddr w ++ wordData w :=
  BitVec.and_allOnes.trans (word_eq_append w)

/-- The bits of a memory read word that are read (R140). -/
theorem and_memrMask (w : Word) : w &&& 0xFFFFFF00 = wordKind w ++ wordAddr w ++ 0#8 := by
  rw [show (0xFFFFFF00 : Word) = BitVec.allOnes 4 ++ BitVec.allOnes 20 ++ 0#8 from rfl, and_append_mask,
    BitVec.and_allOnes, BitVec.and_allOnes, BitVec.and_zero]

/-- The bits of a non-bus word that are read (R148). -/
theorem and_kindMask (w : Word) : w &&& 0xF0000000 = wordKind w ++ 0#20 ++ 0#8 := by
  rw [show (0xF0000000 : Word) = BitVec.allOnes 4 ++ 0#20 ++ 0#8 from rfl, and_append_mask, BitVec.and_allOnes,
    BitVec.and_zero, BitVec.and_zero]

theorem readBits_decodeIow (port : BitVec 16) (v : Byte) : readBits (decodeIow port v) = 0xF0FFFFFF := by
  unfold decodeIow
  split_ifs <;> rfl

theorem readBits_decodeIor (port : BitVec 16) : readBits (decodeIor port) = 0xF0FFFF00 := by
  unfold decodeIor
  split_ifs <;> rfl

theorem readBits_decodeMemw (win : Window) (addr : BitVec 20) (v : Byte) :
    readBits (decodeMemw win addr v) = 0xFFFFFFFF := by
  unfold decodeMemw
  split_ifs <;> rfl

theorem readBits_decodeMemr (win : Window) (addr : BitVec 20) : readBits (decodeMemr win addr) = 0xFFFFFF00 := by
  unfold decodeMemr
  split_ifs <;> rfl

/-- The operand `al` of a CRTC write is what its port mask drops (R144). -/
theorem crtcMask_or_alias (port : BitVec 16) :
    port &&& (0xFFF9 : BitVec 16) ||| (port.extractLsb' 1 2).setWidth 16 <<< 1 = port := by
  ext j hj
  interval_cases j <;> simp

theorem encode_decodeIow (port : BitVec 16) (v : Byte) : encode (decodeIow port v) = encodeIow port v := by
  have halias {base : BitVec 16} (h : port &&& 0xFFF9 = base) :
      encodeIow (base ||| (port.extractLsb' 1 2).setWidth 16 <<< 1) v = encodeIow port v := by
    rw [← h, crtcMask_or_alias]
  unfold decodeIow
  split_ifs with hindex hdata
  · exact halias hindex
  · exact halias hdata
  all_goals simp_all only [encode]

theorem encode_decodeIor (port : BitVec 16) : encode (decodeIor port) = encodeIor port := by
  cases port using port_cases with
  | unclaimed port hport => rw [decodeIor_of_unclaimed hport, encode]
  | claimed low => revert low; decide

theorem encode_decodeMemw (win : Window) (addr : BitVec 20) (v : Byte) :
    encode (decodeMemw win addr v) = encodeMemw addr v := by
  unfold decodeMemw
  split_ifs <;> rfl

theorem encode_decodeMemr (win : Window) (addr : BitVec 20) : encode (decodeMemr win addr) = encodeMemr addr := by
  unfold decodeMemr
  split_ifs <;> rfl

/-- The three low bits of a kind that is none of 0-7 give it back (R149). -/
theorem encode_reserved8to15 {k : BitVec 4} (h : 8 ≤ k) :
    encode (.reserved8to15 (k.extractLsb' 0 3)) = k ++ 0#20 ++ 0#8 := by
  revert k
  decide

/-- Settles O5, by the kind of the word: the map of each bus kind encodes back to the word's fields, and in a non-bus word
the kind is all that is read. -/
theorem encodeOfDecodeKeepsEveryReadBit : Obligations.EncodeOfDecodeKeepsEveryReadBit := by
  unfold Obligations.EncodeOfDecodeKeepsEveryReadBit
  intro win w
  unfold decodeWord
  split_ifs with h0 h1 h2 h3 h4 h5 h6 h7
  · rw [encode_decodeIow, readBits_decodeIow, and_iowMask, h0, encodeIow_eq_append]; rfl
  · rw [encode_decodeIor, readBits_decodeIor, and_iorMask, h1, encodeIor_eq_append]; rfl
  · rw [encode_decodeMemw, readBits_decodeMemw, and_memwMask, h2, encodeMemw_eq_append]; rfl
  · rw [encode_decodeMemr, readBits_decodeMemr, and_memrMask, h3, encodeMemr_eq_append]; rfl
  · rw [readBits, and_kindMask, h4]; rfl
  · rw [readBits, and_kindMask, h5]; rfl
  · rw [readBits, and_kindMask, h6]; rfl
  · rw [readBits, and_kindMask, h7]; rfl
  · rw [readBits, and_kindMask, encode_reserved8to15 (by bv_omega)]

/-! ### The rows a word selects -/

/-- What a word selects depends only on the rows it matches. -/
theorem tableMnemonics_congr {w w' : Word} (h : ∀ row ∈ opcodeTable, row.hits w = row.hits w') :
    tableMnemonics w = tableMnemonics w' := by
  have hfilter (p : OpcodeRow → Bool) :
      opcodeTable.filter (fun row => row.hits w && p row) = opcodeTable.filter (fun row => row.hits w' && p row) :=
    List.filter_congr fun row hrow => by rw [h row hrow]
  simp only [tableMnemonics, hfilter]

/-- A row reads no more of a word than its fixed bits. -/
theorem hits_and {row : OpcodeRow} {m : Word} (hmask : row.mask &&& m = row.mask) (w : Word) :
    row.hits (w &&& m) = row.hits w := by
  rw [OpcodeRow.hits, OpcodeRow.hits, BitVec.and_assoc, BitVec.and_comm m, hmask]

theorem wordKind_and (w m : Word) : wordKind (w &&& m) = wordKind w &&& wordKind m := BitVec.extractLsb'_and

theorem wordPort_and (w m : Word) : wordPort (w &&& m) = wordPort w &&& wordPort m := BitVec.extractLsb'_and

/-- A word matches a row only if their kind fields agree. -/
theorem kind_of_hits {row : OpcodeRow} {w : Word} (h : row.hits w = true) :
    wordKind w &&& wordKind row.mask = wordKind row.pattern := by
  rw [← wordKind_and, of_decide_eq_true h]

/-- A word matches a row only if their port fields agree. -/
theorem port_of_hits {row : OpcodeRow} {w : Word} (h : row.hits w = true) :
    wordPort w &&& wordPort row.mask = wordPort row.pattern := by
  rw [← wordPort_and, of_decide_eq_true h]

/-- A word selects the same rows with the bits cleared that no row of its kind reads. -/
theorem tableMnemonics_and {w m : Word} (hkind : wordKind m = BitVec.allOnes 4)
    (hmask : ∀ row ∈ opcodeTable, wordKind w &&& wordKind row.mask = wordKind row.pattern → row.mask &&& m = row.mask) :
    tableMnemonics (w &&& m) = tableMnemonics w := by
  refine tableMnemonics_congr fun row hrow => ?_
  by_cases hagree : wordKind w &&& wordKind row.mask = wordKind row.pattern
  · exact hits_and (hmask row hrow hagree) w
  · have hw : ¬ row.hits w = true := fun h => hagree (kind_of_hits h)
    have hm : ¬ row.hits (w &&& m) = true := fun h =>
      hagree (by rw [← kind_of_hits h, wordKind_and, hkind, BitVec.and_allOnes])
    rw [Bool.eq_false_of_not_eq_true hw, Bool.eq_false_of_not_eq_true hm]

/-! ### I/O words -/

/-- No I/O row reads bits 27:24 or 7:0 (R140). -/
theorem tableMnemonics_of_io {w : Word} (hk : wordKind w < 2) :
    tableMnemonics w = tableMnemonics (wordKind w ++ (wordPort w).setWidth 20 ++ 0#8) := by
  rw [← and_iorMask]
  refine (tableMnemonics_and rfl ?_).symm
  generalize wordKind w = k at hk
  revert k
  decide

/-- A row of an I/O kind that is no fallback matches no unclaimed port. -/
theorem hits_of_unclaimed {w : Word} (hk : wordKind w < 2) (hport : portClaimed (wordPort w) = false) {row : OpcodeRow}
    (hrow : row ∈ opcodeTable) (hplain : row.fallback = false) : row.hits w = false := by
  have hreads : ∀ k : BitVec 4, k < 2 → ∀ row ∈ opcodeTable, row.fallback = false →
      k &&& wordKind row.mask = wordKind row.pattern →
      wordPort row.mask &&& 0xFFF0 = 0xFFF0 ∧ wordPort row.pattern &&& 0xFFF0 = 0x3D0 := by decide
  refine Bool.eq_false_of_not_eq_true fun h => ?_
  obtain ⟨hmask, hpattern⟩ := hreads _ hk row hrow hplain (kind_of_hits h)
  exact and_ne_of_unclaimed hport hmask hpattern (port_of_hits h)

/-- With an unclaimed port an I/O word selects what its kind alone selects. -/
theorem tableMnemonics_of_unclaimed {w : Word} (hk : wordKind w < 2) (hport : portClaimed (wordPort w) = false) :
    tableMnemonics w = tableMnemonics (wordKind w ++ 0#20 ++ 0#8) := by
  have hkind : wordKind (w &&& 0xF0000000) = wordKind w := (wordKind_and w _).trans BitVec.and_allOnes
  have hport0 : wordPort (w &&& 0xF0000000) = 0 := (wordPort_and w _).trans BitVec.and_zero
  rw [← and_kindMask]
  refine tableMnemonics_congr fun row hrow => ?_
  cases hfallback : row.fallback with
  | true =>
    have hmask : ∀ row ∈ opcodeTable, row.fallback = true → row.mask &&& 0xF0000000 = row.mask := by decide
    exact (hits_and (hmask row hrow hfallback) w).symm
  | false =>
    rw [hits_of_unclaimed hk hport hrow hfallback,
      hits_of_unclaimed (hkind.symm ▸ hk) (by rw [hport0]; rfl) hrow hfallback]

/-- The data byte does not select the row. -/
theorem mnemonic_decodeIow (port : BitVec 16) (v : Byte) : (decodeIow port v).mnemonic = (decodeIow port 0).mnemonic := by
  unfold decodeIow
  split_ifs <;> rfl

theorem tableMnemonics_of_iow {w : Word} (hk : wordKind w = 0) :
    tableMnemonics w = [(decodeIow (wordPort w) (wordData w)).mnemonic] := by
  have hio : wordKind w < 2 := by rw [hk]; decide
  cases hport : portClaimed (wordPort w) with
  | false =>
    rw [tableMnemonics_of_unclaimed hio hport, hk, decodeIow_of_unclaimed hport, Instr.mnemonic]
    decide
  | true =>
    obtain ⟨low, hlow⟩ := (portClaimed_iff _).mp hport
    rw [tableMnemonics_of_io hio, hk, mnemonic_decodeIow, hlow]
    clear hlow
    revert low
    decide

theorem tableMnemonics_of_ior {w : Word} (hk : wordKind w = 1) :
    tableMnemonics w = [(decodeIor (wordPort w)).mnemonic] := by
  have hio : wordKind w < 2 := by rw [hk]; decide
  cases hport : portClaimed (wordPort w) with
  | false =>
    rw [tableMnemonics_of_unclaimed hio hport, hk, decodeIor_of_unclaimed hport, Instr.mnemonic]
    decide
  | true =>
    obtain ⟨low, hlow⟩ := (portClaimed_iff _).mp hport
    rw [tableMnemonics_of_io hio, hk, hlow]
    clear hlow
    revert low
    decide

/-! ### Memory words -/

/-- The reference window is one of the 32 blocks of 0x8000 bytes: the upper five address bits select it. -/
theorem reference_claims_iff (addr : BitVec 20) :
    Window.reference.claims addr = true ↔ addr.extractLsb' 15 5 = 0x17#5 := by
  have hblock : (addr.extractLsb' 15 5).toNat = addr.toNat / 0x8000 := by
    rw [BitVec.extractLsb'_toNat, Nat.shiftRight_eq_div_pow]
    omega
  simp only [Window.claims, Bool.and_eq_true, decide_eq_true_eq, ← BitVec.toNat_inj, hblock, BitVec.toNat_ofNat]
  simp only [Window.reference]
  omega

theorem addr_and_blockMask (addr : BitVec 20) : addr &&& 0xF8000#20 = addr.extractLsb' 15 5 ++ 0#15 := by
  have haddr : addr = addr.extractLsb' 15 5 ++ addr.extractLsb' 0 15 := by
    rw [BitVec.extractLsb'_append_extractLsb'_eq_extractLsb' (start₂ := 15) rfl, BitVec.extractLsb'_eq_self]
  conv_lhs => rw [haddr, show 0xF8000#20 = BitVec.allOnes 5 ++ 0#15 from rfl, BitVec.and_append, BitVec.and_allOnes,
    BitVec.and_zero]

/-- The bits a memory row of the opcode table reads. -/
theorem and_memRowMask (w : Word) : w &&& 0xFF800000 = wordKind w ++ ((wordAddr w).extractLsb' 15 5 ++ 0#15) ++ 0#8 := by
  rw [show (0xFF800000 : Word) = BitVec.allOnes 4 ++ 0xF8000#20 ++ 0#8 from rfl, and_append_mask, BitVec.and_allOnes,
    addr_and_blockMask, BitVec.and_zero]

/-- For a memory word the table reads the kind and the upper five address bits (R147). -/
theorem tableMnemonics_of_mem {w : Word} (hk : wordKind w = 2 ∨ wordKind w = 3) :
    tableMnemonics w = tableMnemonics (wordKind w ++ ((wordAddr w).extractLsb' 15 5 ++ 0#15) ++ 0#8) := by
  rw [← and_memRowMask]
  refine (tableMnemonics_and rfl ?_).symm
  generalize wordKind w = k at hk
  revert k
  decide

theorem tableMnemonics_of_memw {w : Word} (hk : wordKind w = 2) :
    tableMnemonics w = [(decodeMemw Window.reference (wordAddr w) (wordData w)).mnemonic] := by
  have hrow : ∀ block : BitVec 5, tableMnemonics (2#4 ++ (block ++ 0#15) ++ 0#8) =
      [if block = 0x17#5 then "MEMW" else "MEMW_UNCLAIMED"] := by decide
  rw [tableMnemonics_of_mem (.inl hk), hk]
  refine (hrow _).trans ?_
  simp only [decodeMemw, reference_claims_iff]
  split_ifs <;> rfl

theorem tableMnemonics_of_memr {w : Word} (hk : wordKind w = 3) :
    tableMnemonics w = [(decodeMemr Window.reference (wordAddr w)).mnemonic] := by
  have hrow : ∀ block : BitVec 5, tableMnemonics (3#4 ++ (block ++ 0#15) ++ 0#8) =
      [if block = 0x17#5 then "MEMR" else "MEMR_UNCLAIMED"] := by decide
  rw [tableMnemonics_of_mem (.inr hk), hk]
  refine (hrow _).trans ?_
  simp only [decodeMemr, reference_claims_iff]
  split_ifs <;> rfl

/-! ### Non-bus words -/

/-- For a non-bus word the table reads the kind only (R148, R149). -/
theorem tableMnemonics_of_nonBus {w : Word} (hk : 4 ≤ wordKind w) :
    tableMnemonics w = tableMnemonics (wordKind w ++ 0#20 ++ 0#8) := by
  rw [← and_kindMask]
  refine (tableMnemonics_and rfl ?_).symm
  generalize wordKind w = k at hk
  revert k
  decide

theorem tableMnemonics_of_reserved8to15 {w : Word} (hk : 8 ≤ wordKind w) : tableMnemonics w = ["RESERVED_8_15"] := by
  rw [tableMnemonics_of_nonBus (by bv_omega)]
  generalize wordKind w = k at hk
  revert k
  decide

/-- Settles O6, by the kind of the word: in each case only the bits that some row of the kind reads select a row. -/
theorem decoderFollowsTheOpcodeTable : Obligations.DecoderFollowsTheOpcodeTable := by
  unfold Obligations.DecoderFollowsTheOpcodeTable
  intro w
  unfold decodeWord
  split_ifs with h0 h1 h2 h3 h4 h5 h6 h7
  · exact tableMnemonics_of_iow h0
  · exact tableMnemonics_of_ior h1
  · exact tableMnemonics_of_memw h2
  · exact tableMnemonics_of_memr h3
  · rw [tableMnemonics_of_nonBus (by bv_omega), h4]; decide
  · rw [tableMnemonics_of_nonBus (by bv_omega), h5]; decide
  · rw [tableMnemonics_of_nonBus (by bv_omega), h6]; decide
  · rw [tableMnemonics_of_nonBus (by bv_omega), h7]; decide
  · exact tableMnemonics_of_reserved8to15 (by bv_omega)

end Sys2Proof

/-! PROOFS of the family of spec/40_register_file.md: the register-file transactions (O9-O20) and the memory transactions
(O21, O22). -/

namespace Sys2Proof.Machine

/-! ### The next state of an operation of the device, written out -/

theorem commit_silent (s : State) (d : Device) : s.commit d [] = { s with device := some d, outcome := .done } := by
  rw [State.commit, List.append_nil]

/-- An operation that leaves the device alone: only the outcome is written and the events appended. -/
theorem commit_unchanged {s : State} {d : Device} (h : s.device = some d) (out : List Event) :
    s.commit d out = { s with outcome := .done, events := s.events ++ out } := by
  rw [State.commit, ← h]

theorem onRegs_eq {s : State} {d : Device} (h : s.device = some d) (f : Regs → Regs) :
    s.onRegs f = .next { s with device := some { d with regs := f d.regs }, outcome := .done } := by
  rw [onRegs_some h, commit_silent]

/-- A port write without effect. -/
theorem onRegs_id {s : State} {d : Device} (h : s.device = some d) : s.onRegs id = .next { s with outcome := .done } := by
  rw [onRegs_some h]
  exact congrArg _ (commit_same h)

theorem onRead_eq {s : State} {d : Device} (h : s.device = some d) (out : Device → List Event) :
    s.onRead out = .next { s with outcome := .done, events := s.events ++ out d } := by
  rw [onRead_some h, commit_unchanged h]

/-- A transaction that drives no data. -/
theorem onRead_nothing {s : State} {d : Device} (h : s.device = some d) :
    s.onRead (fun _ => []) = .next { s with outcome := .done } := by
  rw [onRead_some h, commit_same h]

/-! ### The CRTC registers -/

/-- The low five bits of a byte are its value mod 32 (R200). -/
theorem setWidth_five (v : Byte) : v.setWidth 5 = BitVec.ofNat 5 (v.toNat % 32) := by
  apply BitVec.eq_of_toNat_eq
  simp

/-- OUT_CRTC_INDEX on a device (R200). -/
theorem exec_outCrtcIndex {s : State} {d : Device} (h : s.device = some d) (portAlias : BitVec 2) (v : Byte) :
    exec (.outCrtcIndex portAlias v) s = .next (s.commit { d with regs := setCrtcIndex v d.regs } []) :=
  onRegs_some h _

/-- OUT_CRTC_DATA on a device (R201): with or without the recomputation, the masked store is all there is. -/
theorem exec_outCrtcData {s : State} {d : Device} (h : s.device = some d) (portAlias : BitVec 2) (v : Byte) :
    exec (.outCrtcData portAlias v) s = .next (s.commit { d with regs := setCrtcData s.params v d.regs } []) := by
  refine (onDevice_some h _).trans ?_
  simp only [timingRecompute_eq, ite_self, State.finish]

/-- IN_CRTC_DATA on a device (R204). -/
theorem exec_inCrtcData {s : State} {d : Device} (h : s.device = some d) :
    exec .inCrtcData s = .next (s.commit d [.read d.regs.crtcSelected]) :=
  onRead_some h _

theorem setCrtcData_crtc_getElem (p : Params) (v : Byte) (c : Regs) (i : Fin 32) :
    (setCrtcData p v c).crtc[i] = if i.val = c.crtcIndex.toNat then v &&& p.crtcMask[i] else c.crtc[i] := by
  simp only [setCrtcData, maskSelected, Fin.getElem_fin, Vector.getElem_set, eq_comm (a := c.crtcIndex.toNat)]
  split
  · next hi => simp only [hi]
  · rfl

/-- The register just written is the one the index still selects. -/
@[simp] theorem setCrtcData_crtcSelected (p : Params) (v : Byte) (c : Regs) :
    (setCrtcData p v c).crtcSelected = v &&& maskSelected p c := by
  simp [Regs.crtcSelected, setCrtcData]

/-- The mask of a register selected through the index port (R32, R200). -/
@[simp] theorem maskSelected_setCrtcIndex (p : Params) (i : Byte) (c : Regs) :
    maskSelected p (setCrtcIndex i c) = p.crtcMask[i.toNat % 32]?.getD 0 := by
  have hlt : i.toNat % 32 < 32 := Nat.mod_lt _ (by decide)
  simp [maskSelected, setCrtcIndex, hlt]

/-- Settles O9: the index is five bits wide. -/
theorem crtcIndexWriteWrapsMod32 : Obligations.CrtcIndexWriteWrapsMod32 := by
  unfold Obligations.CrtcIndexWriteWrapsMod32
  intro s d portAlias v hd
  rw [exec_outCrtcIndex hd, commit_silent, setCrtcIndex, setWidth_five]

/-- Settles O10: the recomputation writes nothing, so the store is the whole effect. -/
theorem crtcDataWriteStoresTheMaskedValue : Obligations.CrtcDataWriteStoresTheMaskedValue := by
  unfold Obligations.CrtcDataWriteStoresTheMaskedValue
  intro s d portAlias v hd
  have hexec := exec_outCrtcData hd portAlias v
  rw [commit_silent] at hexec
  exact ⟨_, hexec, rfl, setCrtcData_crtc_getElem s.params v d.regs⟩

/-- Settles O11: both are reads of the device. -/
theorem crtcReadsReturnIndexAndSelectedRegister : Obligations.CrtcReadsReturnIndexAndSelectedRegister := by
  unfold Obligations.CrtcReadsReturnIndexAndSelectedRegister
  intro s d hd
  constructor
  · rw [BitVec.ofNat_toNat]
    exact onRead_eq hd _
  · exact onRead_eq hd _

/-- Settles O12: the read selects the register just written, under the mask of the index just written. -/
theorem crtcWriteReadsBackMasked : Obligations.CrtcWriteReadsBackMasked := by
  unfold Obligations.CrtcWriteReadsBackMasked
  intro s d i v hd
  refine ⟨_, (execSeq_cons (exec_outCrtcIndex hd 2 i) _).trans <|
    (execSeq_cons (exec_outCrtcData rfl 2 v) _).trans (execSeq_cons (exec_inCrtcData rfl) _), ?_⟩
  simp

/-! ### Mode and colour select -/

theorem and_five_eq_zero_iff (x : Byte) : x &&& 0x05 = 0 ↔ x.getLsbD 0 = false ∧ x.getLsbD 2 = false := by
  revert x
  decide

/-- The rebuild event, by the two mode bits it watches (R205, R438). -/
theorem compositeEvents_eq (old v : Byte) :
    compositeEvents old v =
      if v.getLsbD 0 ≠ old.getLsbD 0 ∨ v.getLsbD 2 ≠ old.getLsbD 2 then [.compositeRebuild v] else [] := by
  have htoggle : (old ^^^ v) &&& 0x05 ≠ 0 ↔ v.getLsbD 0 ≠ old.getLsbD 0 ∨ v.getLsbD 2 ≠ old.getLsbD 2 := by
    simp only [ne_eq, and_five_eq_zero_iff, BitVec.getLsbD_xor, bne_eq_false_iff_eq, not_and_or,
      eq_comm (a := v.getLsbD _)]
  simp only [compositeEvents, htoggle]

/-- Settles O13: OUT_MODE commits its rebuild event with the store, OUT_COLSEL writes a register only. -/
theorem modeAndColourSelectWritesStoreTheByte : Obligations.ModeAndColourSelectWritesStoreTheByte := by
  unfold Obligations.ModeAndColourSelectWritesStoreTheByte
  intro s d v hd
  constructor
  · rw [← compositeEvents_eq]
    exact onDevice_some hd _
  · exact onRegs_eq hd fun c => { c with colorSelect := v }

/-! ### The status byte -/

theorem flagBit_getLsbD (b : Bool) (i j : Fin 8) : (flagBit b i).getLsbD j = (b && decide (i = j)) := by
  revert b i j
  decide

/-- The bits of the draw that the status byte shows (R207). -/
theorem statusMask_getLsbD (j : Fin 8) : (0xF6 : Byte).getLsbD j = (decide (j ≠ 0) && decide (j ≠ 3)) := by
  revert j
  decide

/-- Every bit of the status byte: vsync in bit 3, retrace in bit 0, the draw in the others (R49, R207). -/
theorem statusByte_getLsbD (r : Raster) (draw : Byte) (j : Fin 8) :
    (statusByte r draw).getLsbD j =
      if j = 0 then statusRetrace r else if j = 3 then statusVsync r else draw.getLsbD j := by
  have hvsync : (flagBit (statusVsync r) 3).getLsbD j = _ := flagBit_getLsbD _ 3 j
  have hretrace : (flagBit (statusRetrace r) 0).getLsbD j = _ := flagBit_getLsbD _ 0 j
  rw [statusByte, BitVec.getLsbD_or, BitVec.getLsbD_or, BitVec.getLsbD_and, hvsync, hretrace, statusMask_getLsbD]
  split_ifs with h0 h3
  · simp [h0]
  · simp [h3]
  · simp [h0, h3, eq_comm]

theorem statusRetrace_eq (r : Raster) : statusRetrace r = decide (r.half = .blank ∨ r.dispOn = false) := by
  simp [statusRetrace]

theorem statusVsync_eq (r : Raster) : statusVsync r = decide (0 < r.vsyncRem.toNat) := by
  rw [statusVsync, decide_eq_decide]
  constructor <;> intro h <;> bv_omega

/-- IN_STATUS on a device: the read takes one draw (R207, log 13). -/
theorem exec_inStatus {s : State} {d : Device} (h : s.device = some d) :
    exec .inStatus s = .next { s with
      outcome := .done
      events := s.events ++ [.read (statusByte d.raster (Config.statusDraw s.draws))]
      draws := s.draws + 1 } := by
  refine (onRead_eq ((State.drawn_device s).trans h) _).trans ?_
  simp [State.drawn, h]

/-- Settles O14, bit by bit. -/
theorem statusReadGivesRetraceAndVsync : Obligations.StatusReadGivesRetraceAndVsync := by
  unfold Obligations.StatusReadGivesRetraceAndVsync
  intro s d hd
  refine ⟨_, exec_inStatus hd, ?_, ?_, fun i h0 h3 => ?_⟩
  · rw [← statusRetrace_eq]
    exact statusByte_getLsbD _ _ 0
  · rw [← statusVsync_eq]
    exact statusByte_getLsbD _ _ 3
  · rw [statusByte_getLsbD, if_neg h0, if_neg h3]

/-! ### The extended registers -/

/-- OUT_EXT_DATA on a device (R209). -/
theorem exec_outExtData {s : State} {d : Device} (h : s.device = some d) (v : Byte) :
    exec (.outExtData v) s = .next (s.commit { d with
      regs := setExtData v d.regs
      palette := paletteAfterExt s.params (setExtData v d.regs) d.palette d.regs.extIndex } []) :=
  onDevice_some h _

theorem setExtData_extIndex (v : Byte) (c : Regs) :
    (setExtData v c).extIndex.val = (c.extIndex.val + 1) % 106 := rfl

theorem setExtData_ext_getElem (v : Byte) (c : Regs) (j : Fin 106) :
    (setExtData v c).ext[j] = if j = c.extIndex then v else c.ext[j] := by
  simp [setExtData, Vector.getElem_set, Fin.ext_iff, eq_comm]

/-- Settles O15: the index is stored wrapped. -/
theorem extIndexWriteWrapsMod106 : Obligations.ExtIndexWriteWrapsMod106 := by
  unfold Obligations.ExtIndexWriteWrapsMod106
  intro s d v hd
  exact ⟨_, onRegs_eq hd fun c => { c with extIndex := wrapExt v.toNat }, rfl, wrapExt_val _⟩

/-- Settles O16: the palette is recomputed from the registers after the store, by the index before the increment. -/
theorem extDataWriteStoresRecomputesAndAdvances : Obligations.ExtDataWriteStoresRecomputesAndAdvances := by
  unfold Obligations.ExtDataWriteStoresRecomputesAndAdvances
  intro s d v hd
  have hexec := exec_outExtData hd v
  rw [commit_silent] at hexec
  exact ⟨_, hexec, rfl, setExtData_ext_getElem v d.regs, setExtData_extIndex v d.regs,
    paletteAfterExt_getElem _ _ _ _⟩

/-- The registers after a block of OUT_EXT_DATA writes, the first byte first. -/
def loadExt : List Byte → Regs → Regs
  | [], c => c
  | v :: vs, c => loadExt vs (setExtData v c)

/-- A block of OUT_EXT_DATA writes loads the registers of the device. -/
theorem execSeq_outExtData {s : State} {d : Device} (h : s.device = some d) (vs : List Byte) :
    ∃ t d', execSeq (vs.map .outExtData) s = .next t ∧ t.device = some d' ∧ d'.regs = loadExt vs d.regs := by
  induction vs generalizing s d with
  | nil => exact ⟨s, d, rfl, h, rfl⟩
  | cons v vs ih =>
    rw [List.map_cons, execSeq_cons (exec_outExtData h v)]
    exact ih (State.commit_device ..)

/-- A block advances the index by its length (R209). -/
theorem loadExt_extIndex (vs : List Byte) (c : Regs) :
    (loadExt vs c).extIndex.val = (c.extIndex.val + vs.length) % 106 := by
  induction vs generalizing c with
  | nil => exact (Nat.mod_eq_of_lt c.extIndex.isLt).symm
  | cons v vs ih =>
    rw [loadExt, ih, setExtData_extIndex, List.length_cons]
    omega

/-- A register whose index the block does not pass keeps its byte. -/
theorem loadExt_ext_of_not_passed {vs : List Byte} {c : Regs} {j : Fin 106}
    (h : ∀ n < vs.length, j.val ≠ (c.extIndex.val + n) % 106) : (loadExt vs c).ext[j] = c.ext[j] := by
  induction vs generalizing c with
  | nil => rfl
  | cons v vs ih =>
    have hhead : j ≠ c.extIndex := fun hj => h 0 (by simp) (by omega)
    rw [loadExt, ih, setExtData_ext_getElem, if_neg hhead]
    intro n hn
    have hnext := h (n + 1) (by simpa using hn)
    rw [setExtData_extIndex]
    omega

/-- The n-th byte of a block that does not come round to its first index again (R209). -/
theorem loadExt_ext_of_passed {vs : List Byte} {c : Regs} {n : Nat} {v : Byte} (hlen : vs.length ≤ 106)
    (hn : vs[n]? = some v) : (loadExt vs c).ext[(c.extIndex.val + n) % 106]? = some v := by
  induction vs generalizing c n with
  | nil => cases hn
  | cons w vs ih =>
    rw [List.length_cons] at hlen
    cases n with
    | zero =>
      have hkept : (loadExt vs (setExtData w c)).ext[c.extIndex] = w := by
        rw [loadExt_ext_of_not_passed, setExtData_ext_getElem, if_pos rfl]
        intro n hn
        rw [setExtData_extIndex]
        omega
      cases hn
      rw [Nat.add_zero, Nat.mod_eq_of_lt c.extIndex.isLt]
      exact (Vector.getElem?_eq_getElem c.extIndex.isLt).trans (congrArg some hkept)
    | succ n =>
      have hindex : (c.extIndex.val + (n + 1)) % 106 = ((setExtData w c).extIndex.val + n) % 106 := by
        rw [setExtData_extIndex]
        omega
      rw [hindex]
      exact ih (by omega) hn

/-- Settles O17: the block is a load of the registers, described register by register. -/
theorem extBlockLoadFillsSequentially : Obligations.ExtBlockLoadFillsSequentially := by
  unfold Obligations.ExtBlockLoadFillsSequentially
  intro vs s d hd hlen
  obtain ⟨t, d', hexec, hdev, hregs⟩ := execSeq_outExtData hd vs
  refine ⟨t, d', hexec, hdev, ?_⟩
  rw [hregs]
  exact ⟨loadExt_extIndex vs d.regs, fun n v hn => loadExt_ext_of_passed hlen hn,
    fun j hj => loadExt_ext_of_not_passed hj⟩

/-! ### Ports and addresses without effect -/

/-- Settles O18: the registers stay as they are. -/
theorem noOpPortWritesChangeNothing : Obligations.NoOpPortWritesChangeNothing := by
  unfold Obligations.NoOpPortWritesChangeNothing
  intro s d v hd
  exact ⟨onRegs_id hd, onRegs_id hd, onRegs_id hd, onRegs_id hd⟩

/-- Settles O19, by the row. -/
theorem sentinelReadsReturnFF : Obligations.SentinelReadsReturnFF := by
  unfold Obligations.SentinelReadsReturnFF
  intro s d a b hd i hi
  simp only [List.mem_cons, List.not_mem_nil, or_false] at hi
  obtain rfl | rfl | rfl | rfl | rfl := hi <;> exact onRead_eq hd fun _ => [.read sentinel]

/-- Settles O20, by the row: the I/O write touches no register, the three others drive no data. -/
theorem unclaimedTransactionsChangeNothing : Obligations.UnclaimedTransactionsChangeNothing := by
  unfold Obligations.UnclaimedTransactionsChangeNothing
  intro s d port addr v hd i hi
  simp only [List.mem_cons, List.not_mem_nil, or_false] at hi
  obtain rfl | rfl | rfl | rfl := hi
  · exact onRegs_id hd
  all_goals exact onRead_nothing hd

/-! ### Memory transactions, as whole next states -/

/-- Settles O21: the store is a read-after-write memory. -/
theorem memWriteStoresOneByteAndCharges : Obligations.MemWriteStoresOneByteAndCharges := by
  unfold Obligations.MemWriteStoresOneByteAndCharges
  intro s d addr v hd hwf
  refine ⟨_, exec_memw hd addr v, rfl, fun a => ?_⟩
  rw [Device.vramAt, Memory.read_write hwf]
  simp only [eq_comm (a := a), Device.vramAt]

/-- Settles O22: a read leaves the device alone, and its events are appended in order. -/
theorem memReadReturnsTheByteAndCharges : Obligations.MemReadReturnsTheByteAndCharges := by
  unfold Obligations.MemReadReturnsTheByteAndCharges
  intro s d addr hd
  rw [exec_memr hd, commit_unchanged hd]

end Sys2Proof.Machine

/-! PROOFS of the family of spec/41_timing.md: what a TICK keeps and toggles (O29), the rendering TICK (O30, O32), the
advancing TICK (O33-O38), and the raster within its frame (O58-O60). -/

namespace Sys2Proof.Machine

/-! ### The device a TICK commits -/

/-- The raster after a rendering TICK (R264, R266, R322). -/
def renderedRaster (d : Device) : Raster :=
  { d.raster with
    half := .visible
    displayLine := d.raster.displayLine + 1
    memAddr :=
      if d.raster.dispOn then d.raster.memAddr + BitVec.ofNat 14 (variant d.regs).cells else d.raster.memAddr }

/-- The bookkeeping after a rendering TICK (R265, R436). -/
def renderedFrame (p : Params) (d : Device) : FrameState :=
  { (if d.raster.dispOn then updateBounds d.raster.displayLine d.frame else d.frame) with
    frameLines := d.frame.frameLines ++ [(d.raster.displayLine, hostLine p d (tickLine p d))] }

/-- The device after a rendering TICK. -/
def renderedDevice (p : Params) (d : Device) : Device :=
  { d with raster := renderedRaster d, frame := renderedFrame p d }

/-- A rendering TICK that is not refused, as a whole next state. -/
theorem execTick_blank {s : State} {d : Device} (h : s.device = some d) (hh : d.raster.half = .blank)
    (hr : Renders s.params d) :
    exec .tick s = .next (s.commit (renderedDevice s.params d)
      [.line d.raster.displayLine (tickLine s.params d) d.regs.mode]) := by
  cases hdisp : d.raster.dispOn with
  | false =>
    have hoff : ¬ d.raster.dispOn = true := by simp [hdisp]
    rw [execTick_border h hh hdisp, finish_emitLine]
    simp only [renderedDevice, renderedRaster, renderedFrame, tickLine, if_neg hoff]
    rfl
  | true =>
    have hsup : isUnsupported s.params d = false := hr.resolve_left (by simp [hdisp])
    rw [execTick_displayed h hh hdisp hsup, finish_emitLine, displayedLine_displayedDevice]
    simp only [renderedDevice, renderedRaster, renderedFrame, tickLine, if_pos hdisp]
    rfl

/-- The device after an advancing TICK (R270). -/
def advancedDevice (p : Params) (d : Device) : Device :=
  { countedDevice p d with raster := advanceRaster p (countedDevice p d) }

/-- An advancing TICK is never refused; it emits what the countdown emits. -/
theorem execTick_advances {s : State} {d : Device} (h : s.device = some d) (hh : d.raster.half = .visible) :
    exec .tick s = .next (s.commit (advancedDevice s.params d) (countedEvents s.params d)) :=
  execTick_visible h hh

/-- The device after a TICK that is not refused. -/
def tickedDevice (p : Params) (d : Device) : Device :=
  if d.raster.half = .blank then renderedDevice p d else advancedDevice p d

theorem tickedDevice_blank {d : Device} (hh : d.raster.half = .blank) (p : Params) :
    tickedDevice p d = renderedDevice p d := if_pos hh

theorem tickedDevice_visible {d : Device} (hh : d.raster.half = .visible) (p : Params) :
    tickedDevice p d = advancedDevice p d := if_neg (by simp [hh])

/-- Both halves of a TICK in one: it commits the ticked device. -/
theorem execTick_commits {s : State} {d : Device} (h : s.device = some d)
    (hr : d.raster.half = .visible ∨ Renders s.params d) :
    ∃ out, exec .tick s = .next (s.commit (tickedDevice s.params d) out) := by
  cases hh : d.raster.half with
  | blank => exact ⟨_, by rw [tickedDevice_blank hh, execTick_blank h hh (hr.resolve_left (by simp [hh]))]⟩
  | visible => exact ⟨_, by rw [tickedDevice_visible hh, execTick_advances h hh]⟩

theorem sameHost_commit (s : State) (d : Device) (out : List Event) : SameHost s (s.commit d out) :=
  ⟨rfl, rfl, rfl, rfl⟩

theorem tickedDevice_sameStores (p : Params) (d : Device) : SameStores d (tickedDevice p d) := by
  cases hh : d.raster.half with
  | blank => rw [tickedDevice_blank hh]; exact ⟨rfl, rfl, rfl, rfl⟩
  | visible => rw [tickedDevice_visible hh]; exact ⟨rfl, rfl, rfl, rfl⟩

/-- The vertical advance happens in the blank half (R270). -/
theorem advancedDevice_half (p : Params) (d : Device) : (advancedDevice p d).raster.half = .blank := by
  rw [advancedDevice, advanceRaster_eq]
  exact (verticalAdvance_frame p d.regs _ _).1

theorem tickedDevice_half (p : Params) (d : Device) :
    (tickedDevice p d).raster.half = if d.raster.half = .blank then .visible else .blank := by
  cases hh : d.raster.half with
  | blank => rw [tickedDevice_blank hh]; rfl
  | visible => rw [tickedDevice_visible hh, advancedDevice_half]; rfl

/-- Settles O29: the TICK commits a device with the same stores and the other half. -/
theorem tickTogglesHalfAndKeepsStores : Obligations.TickTogglesHalfAndKeepsStores := by
  unfold Obligations.TickTogglesHalfAndKeepsStores
  intro s d hd hr
  obtain ⟨out, hexec⟩ := execTick_commits hd hr
  exact ⟨_, _, hexec, rfl, rfl, sameHost_commit _ _ _, rfl, tickedDevice_sameStores _ d, tickedDevice_half _ d⟩

/-! ### The rendering TICK -/

/-- The line of a rendering TICK by what can put the border in its place (R264, R347). -/
theorem tickLine_eq (p : Params) (d : Device) :
    tickLine p d =
      if d.raster.dispOn = false ∨ (p.videoEnableGates = true ∧ d.regs.mode.getLsbD 3 = false)
      then borderFill d.regs else cursorOverlay p d (renderLine p d) := by
  cases hdisp : d.raster.dispOn with
  | false => simp [tickLine, hdisp]
  | true =>
    simp only [tickLine, hdisp, displayedLine, modeVideoEnable, Bool.and_eq_true, Bool.not_eq_true', if_true,
      Bool.true_eq_false, false_or]

/-- Settles O30: the committed event and device, written out. -/
theorem renderingTickEmitsExactlyOneLine : Obligations.RenderingTickEmitsExactlyOneLine := by
  unfold Obligations.RenderingTickEmitsExactlyOneLine
  intro s d hd hh hr
  exact ⟨_, _, tickLine s.params d, execTick_blank hd hh hr, rfl, rfl, BitVec.toNat_add _ _, tickLine_eq _ d, rfl⟩

/-- The cells of a line from mode bit 0 (R320, R322). -/
theorem variant_cells (c : Regs) : (variant c).cells = if c.mode.getLsbD 0 = true then 80 else 40 := by
  unfold variant variantOf
  cases c.mode.getLsbD 0 <;> cases c.mode.getLsbD 1 <;> cases c.mode.getLsbD 4 <;> rfl

/-- The first line of the bounds is the least line seen (R265). -/
theorem updateBounds_firstLine (n : BitVec 16) (f : FrameState) :
    (updateBounds n f).firstLine.toNat = min f.firstLine.toNat n.toNat := by
  have e : (updateBounds n f).firstLine = if n < f.firstLine then n else f.firstLine := rfl
  rw [e]
  split <;> bv_omega

/-- Settles O32: with the display on, the rendered device has the updated bounds and the advanced address. -/
theorem displayedTickUpdatesBoundsAndAddress : Obligations.DisplayedTickUpdatesBoundsAndAddress := by
  unfold Obligations.DisplayedTickUpdatesBoundsAndAddress
  intro s d hd hh hdisp hsup
  have hframe : renderedFrame s.params d = { updateBounds d.raster.displayLine d.frame with
      frameLines := (renderedFrame s.params d).frameLines } := by simp [renderedFrame, hdisp]
  refine ⟨_, renderedDevice s.params d, execTick_blank hd hh (.inr hsup), rfl, ?_, ?_, ?_, rfl, ?_⟩
  · exact (congrArg (·.firstLine.toNat) hframe).trans (updateBounds_firstLine _ _)
  · exact congrArg (·.lastLine) hframe
  · rw [← variant_cells]
    simp [renderedDevice, renderedRaster, hdisp]
  · simp only [renderedDevice]
    rw [hframe]
    rfl

/-! ### The raster of an advancing TICK -/

/-- The raster of an advancing TICK after its vertical advance, before the text cursor's start check and the shadow
refresh (R270). -/
def steppedRaster (p : Params) (d : Device) : Raster :=
  verticalAdvance p d.regs (countedDevice p d).frame (countedDevice p d).raster

/-- The last two actions of an advancing TICK write `con` and `shadow` only (R415, R290). -/
theorem advancedDevice_raster (p : Params) (d : Device) :
    (advancedDevice p d).raster = { steppedRaster p d with
      con := (advancedDevice p d).raster.con, shadow := (advancedDevice p d).raster.shadow } := by
  simp only [advancedDevice, advanceRaster_eq]
  rfl

/-- The end check looks at the old scanline, the start check at the new one (R414, R415). -/
theorem advancedDevice_con (p : Params) (d : Device) :
    (advancedDevice p d).raster.con =
      ((d.raster.con && !meetsLimit p d.regs d.raster (cursorEnd d.regs)) ||
        meetsLimit p d.regs (advancedDevice p d).raster (cursorStart d.regs)) := by
  rw [advancedDevice_raster]
  simp only [advancedDevice, advanceRaster_eq]
  rfl

/-- The refresh reads at the new address (R290). -/
theorem advancedDevice_shadow (p : Params) (d : Device) :
    (advancedDevice p d).raster.shadow =
      if (advancedDevice p d).raster.dispOn && decide (variant d.regs = .text80) then
        tabulate 160 fun j => Memory.read d.vram ((2 * (advancedDevice p d).raster.memAddr.toNat + j) % 0x4000)
      else d.raster.shadow := by
  simp only [advancedDevice, advanceRaster_eq]
  rfl

/-- The countdown writes only `half` and `vsyncRem` of the raster (R271). -/
theorem countedDevice_raster (p : Params) (d : Device) :
    (countedDevice p d).raster =
      { d.raster with half := .blank, vsyncRem := (countedDevice p d).raster.vsyncRem } := rfl

/-! The three cases of the vertical advance (R270), from the raster before the TICK: the countdown moves neither the
scanline nor the pad lines. -/

theorem steppedRaster_inRow {d : Device} (h0 : d.raster.adjRem = 0) (h1 : d.raster.scanline.toNat ≠ rowHeight d.regs - 1)
    (p : Params) : steppedRaster p d = nextScanline (countedDevice p d).raster :=
  (if_neg (not_not.mpr h0)).trans (if_neg h1)

theorem steppedRaster_rowEnd {d : Device} (h0 : d.raster.adjRem = 0)
    (h1 : d.raster.scanline.toNat = rowHeight d.regs - 1) (p : Params) :
    steppedRaster p d = rowEnd p d.regs (countedDevice p d).frame (countedDevice p d).raster :=
  (if_neg (not_not.mpr h0)).trans (if_pos h1)

theorem steppedRaster_pad {d : Device} (h0 : d.raster.adjRem ≠ 0) (p : Params) :
    steppedRaster p d = adjustStep d.regs (countedDevice p d).raster := if_pos h0

/-- Settles O33: inside a row the vertical advance is the next scanline. -/
theorem advancingTickInsideARowRereadsItsCells : Obligations.AdvancingTickInsideARowRereadsItsCells := by
  unfold Obligations.AdvancingTickInsideARowRereadsItsCells
  intro s d hd hh h0 rh hrow
  have hr := advancedDevice_raster s.params d
  rw [steppedRaster_inRow h0 (by rw [rowHeight_eq]; exact hrow)] at hr
  refine ⟨_, _, execTick_advances hd hh, rfl, ?_, congrArg (·.memAddr) hr, ?_, ?_⟩
  · exact (congrArg (·.scanline.toNat) hr).trans (BitVec.toNat_add _ _)
  · exact (congrArg (·.vsyncRem.toNat) hr).trans (countedDevice_vsyncRem s.params d)
  · rw [hr]
    rfl

/-- The end of a pad line, said once (R272, R275): each field, the last pad line being the one that counts from 1. -/
theorem adjustStep_eq (c : Regs) (r : Raster) :
    adjustStep c r = { r with
      scanline := if r.adjRem = 1 then 0 else r.scanline + 1
      memAddr := if r.adjRem = 1 then startAddr c else r.memAddrBack
      memAddrBack := if r.adjRem = 1 then startAddr c else r.memAddrBack
      adjRem := r.adjRem - 1
      dispOn := if r.adjRem = 1 then true else r.dispOn } := by
  have hlast : r.adjRem - 1 = 0 ↔ r.adjRem = 1 := by
    constructor <;> intro h <;> bv_omega
  simp only [adjustStep, hlast, frameTop]
  split <;> rfl

/-- A count that is not 0 steps down as a number. -/
theorem toNat_sub_one {n : BitVec 8} (h : n ≠ 0) : (n - 1).toNat = n.toNat - 1 := by
  bv_omega

/-- Settles O34: in the pad lines the vertical advance is the end of a pad line. -/
theorem advancingTickInVerticalAdjustCountsPadLines : Obligations.AdvancingTickInVerticalAdjustCountsPadLines := by
  unfold Obligations.AdvancingTickInVerticalAdjustCountsPadLines
  intro s d hd hh h0
  have hr := advancedDevice_raster s.params d
  rw [steppedRaster_pad h0, adjustStep_eq, countedDevice_raster] at hr
  refine ⟨_, _, execTick_advances hd hh, rfl, ?_, ?_, ?_, congrArg (·.vCounter) hr, congrArg (·.displayLine) hr,
    congrArg (·.cursorBlinkOn) hr⟩
  · exact (congrArg (·.adjRem.toNat) hr).trans (toNat_sub_one h0)
  · exact (congrArg (·.vsyncRem.toNat) hr).trans (countedDevice_vsyncRem s.params d)
  · rw [hr]
    split
    · simp [startAddr_toNat]
    · simp

/-- Settles O35: at the last scanline of a row the vertical advance is the end of the row, as `rowEnd_eq` gives it. -/
theorem advancingTickAtRowEndStepsTheFrame : Obligations.AdvancingTickAtRowEndStepsTheFrame := by
  unfold Obligations.AdvancingTickAtRowEndStepsTheFrame
  intro s d hd hh h0
  rw [← rowHeight_eq, ← vertEntry_eq]
  intro rh e hrow old next atEnd restart startsVsync
  have hr := advancedDevice_raster s.params d
  rw [steppedRaster_rowEnd h0 hrow, rowEnd_eq, countedDevice_raster] at hr
  have hnext : (d.raster.vCounter + 1).toNat = next := BitVec.toNat_add _ _
  have hv : (if atEnd then 0 else d.raster.vCounter + 1).toNat = if atEnd then 0 else next := by
    rw [apply_ite BitVec.toNat, hnext]
    rfl
  have hsync : (if atEnd then 0 else d.raster.vCounter + 1).toNat = vsyncRow s.params d.regs ↔ startsVsync :=
    Eq.congr_left hv
  refine ⟨_, _, execTick_advances hd hh, rfl, congrArg (·.scanline) hr, ?_, ?_, ?_, ?_, ?_, ?_, ?_, ?_, ?_⟩
  · exact (congrArg (·.vCounter.toNat) hr).trans hv
  · rw [← startAddr_toNat, ← apply_ite BitVec.toNat]
    exact congrArg (·.memAddr.toNat) hr
  · exact (congrArg (·.memAddrBack) hr).trans (congrArg (·.memAddr) hr).symm
  · exact (congrArg (·.adjRem) hr).trans (if_congr Iff.rfl rfl h0)
  · exact (congrArg (·.dispOn) hr).trans
      (if_congr hsync rfl (if_congr Iff.rfl rfl (if_congr (Eq.congr_left hnext) rfl rfl)))
  · exact (congrArg (·.displayLine) hr).trans (if_congr hsync rfl rfl)
  · intro h
    exact (congrArg (·.vsyncRem) hr).trans (if_pos (hsync.mpr h))
  · intro h
    rw [← countedDevice_vsyncRem s.params d]
    exact congrArg BitVec.toNat ((congrArg (·.vsyncRem) hr).trans (if_neg (hsync.not.mpr h)))
  · refine (congrArg (·.cursorBlinkOn) hr).trans (if_congr Iff.rfl ?_ rfl)
    rw [decide_not]
    rfl

/-! ### The end of the pulse -/

/-- The bookkeeping of an advancing TICK is that of the countdown (R271, R276). -/
theorem advancedDevice_frame (p : Params) (d : Device) :
    (advancedDevice p d).frame = if d.raster.vsyncRem = 1 then finalizedFrame p d.regs d.frame else d.frame := rfl

/-- The event of a finalised frame, with one test for a change of its dimensions (R436). -/
theorem frameDoneEvent_eq (p : Params) (c : Regs) (f : FrameState) :
    frameDoneEvent p c f = .frameDone (frameWidth p c) (observedHeight f) f.firstLine f.lastLine (variant c).isText
      (decide (frameWidth p c ≠ f.prevW ∨ observedHeight f ≠ f.prevH))
      (descriptorOf (variant c) (frameWidth p c).toNat (observedHeight f).toNat) f.frameLines := by
  rw [Bool.decide_or]
  rfl

/-- None of the events is a FrameDone. -/
def NoFrameDone (out : List Event) : Prop :=
  ∀ w h first last isText changed descriptor block,
    Event.frameDone w h first last isText changed descriptor block ∉ out

theorem noFrameDone_nil : NoFrameDone [] := by simp [NoFrameDone]
theorem noFrameDone_read (v : Byte) : NoFrameDone [.read v] := by simp [NoFrameDone]
theorem noFrameDone_waitCharge (c : Nat) : NoFrameDone [.waitCharge c] := by simp [NoFrameDone]
theorem noFrameDone_waitCharge_read (c : Nat) (v : Byte) : NoFrameDone [.waitCharge c, .read v] := by
  simp [NoFrameDone]
theorem noFrameDone_line (n : BitVec 16) (ln : Line) (m : Byte) : NoFrameDone [.line n ln m] := by simp [NoFrameDone]

theorem noFrameDone_compositeEvents (old v : Byte) : NoFrameDone (compositeEvents old v) := by
  unfold compositeEvents
  split <;> simp [NoFrameDone]

/-- `o` is a next state that appends to the events `before`, and no FrameDone among them. -/
def EmitsNoFrame (before : List Event) (o : Host.Outcome State Fault Refusal) : Prop :=
  ∃ t out, o = .next t ∧ t.events = before ++ out ∧ NoFrameDone out

/-- A state that keeps the events is a next state without a FrameDone: a refusal, ATTACH, DETACH. -/
theorem emitsNoFrame_silent {s t : State} (h : t.events = s.events) : EmitsNoFrame s.events (.next t) :=
  ⟨t, [], rfl, by rw [h, List.append_nil], noFrameDone_nil⟩

/-- An operation of the device delivers no frame when its effect does not. -/
theorem onDevice_emitsNoFrame {s : State} {f : Device → OpResult}
    (hf : ∀ d d' out, s.device = some d → f d = .done d' out → NoFrameDone out) :
    EmitsNoFrame s.events (s.onDevice f) := by
  cases hd : s.device with
  | none => rw [onDevice_none hd]; exact emitsNoFrame_silent rfl
  | some d =>
    rw [onDevice_some hd]
    cases hfd : f d with
    | done d' out => exact ⟨_, out, rfl, rfl, hf d d' out hd hfd⟩
    | refuse reason => exact emitsNoFrame_silent rfl

theorem onRegs_emitsNoFrame (s : State) (f : Regs → Regs) : EmitsNoFrame s.events (s.onRegs f) :=
  onDevice_emitsNoFrame fun _ _ _ _ h => by cases h; exact noFrameDone_nil

theorem onRead_emitsNoFrame (s : State) {out : Device → List Event} (hout : ∀ d, NoFrameDone (out d)) :
    EmitsNoFrame s.events (s.onRead out) :=
  onDevice_emitsNoFrame fun d _ _ _ h => by cases h; exact hout d

/-- A TICK that does not end the pulse emits a line or nothing. -/
theorem tickDevice_noFrameDone {p : Params} {d d' : Device} {out : List Event}
    (hpulse : ¬ (d.raster.half = .visible ∧ d.raster.vsyncRem = 1)) (h : tickDevice p d = .done d' out) :
    NoFrameDone out := by
  unfold tickDevice at h
  split at h
  · unfold enterVisible at h
    split_ifs at h <;> cases h <;> exact noFrameDone_line _ _ _
  · next hh =>
    have hnone : countedEvents p d = [] := if_neg fun h1 => hpulse ⟨hh, h1⟩
    rw [enterBlank, vsyncCountdown_eq, hnone] at h
    cases h
    exact noFrameDone_nil

theorem execAttach_emitsNoFrame (s : State) : EmitsNoFrame s.events (execAttach s) := by
  unfold execAttach
  split <;> exact emitsNoFrame_silent rfl

theorem execDetach_emitsNoFrame (s : State) : EmitsNoFrame s.events (execDetach s) := by
  unfold execDetach
  split <;> exact emitsNoFrame_silent rfl

/-- R436, said once for every operation but the TICK that ends the pulse. -/
theorem exec_emitsNoFrame {i : Instr} {s : State}
    (hpulse : ∀ d, s.device = some d → ¬ (i = .tick ∧ d.raster.half = .visible ∧ d.raster.vsyncRem = 1)) :
    EmitsNoFrame s.events (exec i s) := by
  cases i with
  | tick =>
    exact onDevice_emitsNoFrame fun d _ _ hd h => tickDevice_noFrameDone (fun hp => hpulse d hd ⟨rfl, hp⟩) h
  | attach => exact execAttach_emitsNoFrame s
  | detach => exact execDetach_emitsNoFrame s
  | reserved7 | reserved8to15 => exact emitsNoFrame_silent rfl
  | outMode => exact onDevice_emitsNoFrame fun _ _ _ _ h => by cases h; exact noFrameDone_compositeEvents _ _
  | memw => exact onDevice_emitsNoFrame fun _ _ _ _ h => by cases h; exact noFrameDone_waitCharge _
  | memr => exact onRead_emitsNoFrame s fun _ => noFrameDone_waitCharge_read _ _
  | outCrtcData | outExtData => exact onDevice_emitsNoFrame fun _ _ _ _ h => by cases h; exact noFrameDone_nil
  | outColsel v => exact onRegs_emitsNoFrame s fun c => { c with colorSelect := v }
  | outExtIndex v => exact onRegs_emitsNoFrame s fun c => { c with extIndex := wrapExt v.toNat }
  | outCrtcIndex | outNop3da | outNop3db | outNop3dc | outReserved | iowUnclaimed => exact onRegs_emitsNoFrame s _
  | inStatus =>
    rw [← State.drawn_events s]
    exact onRead_emitsNoFrame s.drawn fun _ => noFrameDone_read _
  | inCrtcIndex | inCrtcData | inFf3d0 | inFf3d6 | inFf3d8 | inFf3db | inFf3dc =>
    exact onRead_emitsNoFrame s fun _ => noFrameDone_read _
  | iorUnclaimed | memwUnclaimed | memrUnclaimed => exact onRead_emitsNoFrame s fun _ => noFrameDone_nil

/-- Settles O36: the advancing TICK by whether the pulse ends, and every other operation. -/
theorem vsyncPulseEndFinalisesTheFrame : Obligations.VsyncPulseEndFinalisesTheFrame := by
  unfold Obligations.VsyncPulseEndFinalisesTheFrame
  refine ⟨fun s d hd hh => ?_, fun i s hpulse => exec_emitsNoFrame hpulse⟩
  refine ⟨_, _, execTick_advances hd hh, rfl, ?_⟩
  rw [State.commit_events, advancedDevice_frame, countedEvents]
  split
  · rw [frameDoneEvent_eq]
    exact ⟨rfl, rfl⟩
  · exact ⟨List.append_nil _, rfl⟩

/-! ### The text cursor and the shadow -/

/-- A cursor limit from its CRTC byte (R412, R416). -/
theorem meetsLimit_iff (p : Params) (c : Regs) (r : Raster) (register : Byte) :
    meetsLimit p c r (register.setWidth 5) = true ↔
      r.scanline.toNat = register.toNat % 32 ∨
        (p.interlaced[c.ext[0x65].toNat / 2 ^ p.resHLsb.val % 4]'(Nat.mod_lt _ (by decide)) = true ∧
          r.scanline.toNat = register.toNat % 32 / 2) := by
  simp [meetsLimit, isInterlaced_eq, ← BitVec.toNat_inj, Nat.shiftRight_eq_div_pow]

/-- Settles O37: the two checks, in the order of R270. -/
theorem textCursorLimitsSetAndClearCon : Obligations.TextCursorLimitsSetAndClearCon := by
  unfold Obligations.TextCursorLimitsSetAndClearCon
  intro s d hd hh interlaced
  refine ⟨_, advancedDevice s.params d, execTick_advances hd hh, rfl, ?_⟩
  intro meets
  have hend : meets d.raster.scanline d.regs.crtc[11] ↔ meetsLimit s.params d.regs d.raster (cursorEnd d.regs) = true :=
    (meetsLimit_iff s.params d.regs d.raster _).symm
  have hstart : meets (advancedDevice s.params d).raster.scanline d.regs.crtc[10] ↔
      meetsLimit s.params d.regs (advancedDevice s.params d).raster (cursorStart d.regs) = true :=
    (meetsLimit_iff s.params d.regs (advancedDevice s.params d).raster _).symm
  rw [hend, hstart, advancedDevice_con]
  exact ⟨fun h => by simp [h], fun hs he => by simp [hs, he], fun hs he => by simp [hs, he]⟩

theorem variant_text80_iff (c : Regs) : variant c = .text80 ↔ c.mode.getLsbD 0 = true := by
  refine ⟨fun h => ?_, variant_text80⟩
  by_contra h0
  unfold variant variantOf at h
  rw [if_neg h0] at h
  split_ifs at h

/-- Settles O38: the refresh tabulates the bytes at the new address, or keeps the shadow. -/
theorem shadowRefreshCapturesTheNextText80Line : Obligations.ShadowRefreshCapturesTheNextText80Line := by
  unfold Obligations.ShadowRefreshCapturesTheNextText80Line
  intro s d hd hh
  refine ⟨_, advancedDevice s.params d, execTick_advances hd hh, rfl, ?_⟩
  rw [advancedDevice_shadow]
  simp only [← variant_text80_iff, Bool.and_eq_true, decide_eq_true_eq]
  split
  · intro j
    exact tabulate_getElem _ _ _ j.isLt
  · rfl

/-! ### The rows and lines of a frame -/

/-- The lookup entry in rows: END, VIS and VSYNC are whole rows, and the rows fit the row counter (R260, R69, R8). -/
structure WholeRows (p : Params) (c : Regs) : Prop where
  endLine : (vertEntry p c).endLine = (lastRow p c + 1) * rowHeight c
  vis : (vertEntry p c).vis = displayedRows p c * rowHeight c
  vsync : (vertEntry p c).vsync = vsyncRow p c * rowHeight c
  lastRow_lt : lastRow p c < 128
  vsyncRow_le : vsyncRow p c ≤ lastRow p c

theorem wholeRows_of_wf {p : Params} {c : Regs} (h : (vertEntry p c).wf = true) : WholeRows p c := by
  simp only [VertEntry.wf, Bool.and_eq_true, decide_eq_true_eq] at h
  obtain ⟨⟨⟨⟨⟨hend, hvis⟩, hvsync⟩, -⟩, hlt⟩, hle⟩ := h
  obtain hrh | hrh := rowHeight_cases c
  all_goals constructor <;> simp only [lastRow, displayedRows, vsyncRow, hrh] <;> omega

theorem rowHeight_pos (c : Regs) : 0 < rowHeight c := by
  obtain hrh | hrh := rowHeight_cases c <;> omega

/-- The lines of row `v` lie before row `w` exactly when the row does. -/
theorem line_lt_rows_iff {v w line height : Nat} (hline : line < height) :
    v * height + line < w * height ↔ v < w := by
  have hpos : 0 < height := by omega
  rw [← Nat.div_lt_iff_lt_mul hpos, Nat.add_comm, Nat.add_mul_div_right _ _ hpos, Nat.div_eq_of_lt hline, Nat.zero_add]

section
variable {p : Params} {c : Regs} {f : FrameState} {r : Raster}

theorem frameLine_of_row (h0 : r.adjRem = 0) :
    frameLine p c r = r.vCounter.toNat * rowHeight c + r.scanline.toNat := if_pos h0

theorem frameLine_of_pad (h0 : r.adjRem ≠ 0) :
    frameLine p c r = (vertEntry p c).endLine + ((adjustLines p c).toNat - r.adjRem.toNat) := if_neg h0

theorem inFrame_of_row (h0 : r.adjRem = 0) :
    InFrame p c r ↔ r.scanline.toNat < rowHeight c ∧ r.vCounter.toNat ≤ lastRow p c := by
  rw [InFrame, if_pos h0]

theorem inFrame_of_pad (h0 : r.adjRem ≠ 0) : InFrame p c r ↔ r.vCounter = 0 ∧ r.adjRem ≤ adjustLines p c := by
  rw [InFrame, if_neg h0]

/-- The first line of a row (the top of the frame is that of row 0). -/
theorem frameLine_of_rowStart (h0 : r.adjRem = 0) (hs : r.scanline = 0) :
    frameLine p c r = r.vCounter.toNat * rowHeight c := by
  rw [frameLine_of_row h0, hs]
  rfl

theorem inFrame_of_rowStart (h0 : r.adjRem = 0) (hs : r.scanline = 0) (hv : r.vCounter.toNat ≤ lastRow p c) :
    InFrame p c r :=
  (inFrame_of_row h0).mpr ⟨by rw [hs]; exact rowHeight_pos c, hv⟩

/-- The last line of a row is followed by the next row's first. -/
theorem frameLine_of_rowEnd (h0 : r.adjRem = 0) (h1 : r.scanline.toNat = rowHeight c - 1) :
    frameLine p c r + 1 = (r.vCounter.toNat + 1) * rowHeight c := by
  have hpos := rowHeight_pos c
  rw [frameLine_of_row h0, h1, Nat.succ_mul]
  omega

/-- A raster in the frame is on one of its TOTAL lines. -/
theorem frameLine_lt (hrows : WholeRows p c) (hin : InFrame p c r) : frameLine p c r < totalLines p c := by
  have htotal : totalLines p c = (vertEntry p c).endLine + (adjustLines p c).toNat := rfl
  by_cases h0 : r.adjRem = 0
  · obtain ⟨hs, hv⟩ := (inFrame_of_row h0).mp hin
    rw [frameLine_of_row h0, htotal, hrows.endLine]
    exact Nat.lt_add_right _ ((line_lt_rows_iff hs).mpr (Nat.lt_succ_of_le hv))
  · obtain ⟨-, ha⟩ := (inFrame_of_pad h0).mp hin
    rw [frameLine_of_pad h0, htotal]
    bv_omega

/-! ### One line on -/

/-- `r'` is in the frame, on the line after that of `r`, or at the top after the last line. -/
structure OnNextLine (p : Params) (c : Regs) (r r' : Raster) : Prop where
  inFrame : InFrame p c r'
  line : frameLine p c r' = (frameLine p c r + 1) % totalLines p c

theorem onNextLine_of_succ {r' : Raster} (hrows : WholeRows p c) (hin : InFrame p c r')
    (hline : frameLine p c r' = frameLine p c r + 1) : OnNextLine p c r r' :=
  ⟨hin, by rw [← hline, Nat.mod_eq_of_lt (frameLine_lt hrows hin)]⟩

theorem onNextLine_of_top {r' : Raster} (hin : InFrame p c r') (htop : frameLine p c r' = 0)
    (hlast : frameLine p c r + 1 = totalLines p c) : OnNextLine p c r r' :=
  ⟨hin, by rw [htop, hlast, Nat.mod_self]⟩

/-- Inside a row no counter wraps. -/
theorem nextScanline_scanline (hs : r.scanline.toNat < rowHeight c) :
    (nextScanline r).scanline.toNat = r.scanline.toNat + 1 := by
  have hle : rowHeight c ≤ 8 := by obtain hrh | hrh := rowHeight_cases c <;> omega
  have e : (nextScanline r).scanline = r.scanline + 1 := rfl
  rw [e]
  bv_omega

theorem frameLine_nextScanline (h0 : r.adjRem = 0) (hin : InFrame p c r) :
    frameLine p c (nextScanline r) = frameLine p c r + 1 := by
  have hs := ((inFrame_of_row h0).mp hin).1
  have h0' : (nextScanline r).adjRem = 0 := h0
  rw [frameLine_of_row h0', frameLine_of_row h0, nextScanline_scanline hs]
  rfl

theorem inFrame_nextScanline (h0 : r.adjRem = 0) (h1 : r.scanline.toNat ≠ rowHeight c - 1) (hin : InFrame p c r) :
    InFrame p c (nextScanline r) := by
  obtain ⟨hs, hv⟩ := (inFrame_of_row h0).mp hin
  have h0' : (nextScanline r).adjRem = 0 := h0
  refine (inFrame_of_row h0').mpr ⟨?_, hv⟩
  rw [nextScanline_scanline hs]
  omega

theorem rowEnd_scanline : (rowEnd p c f r).scanline = 0 := by rw [rowEnd_eq]

/-- The end of a row that is not the last: the next row, without pad lines. -/
theorem rowEnd_nextRow (hrows : WholeRows p c) (h0 : r.adjRem = 0) (hv : r.vCounter.toNat < lastRow p c) :
    (rowEnd p c f r).adjRem = 0 ∧ (rowEnd p c f r).vCounter.toNat = r.vCounter.toNat + 1 := by
  have hlt := hrows.lastRow_lt
  rw [rowEnd_eq]
  refine ⟨(if_neg hv.ne).trans h0, (congrArg BitVec.toNat (if_neg hv.ne)).trans ?_⟩
  bv_omega

/-- The end of the last row: row 0, with all pad lines to come. -/
theorem rowEnd_lastRow (hv : r.vCounter.toNat = lastRow p c) :
    (rowEnd p c f r).adjRem = adjustLines p c ∧ (rowEnd p c f r).vCounter = 0 := by
  rw [rowEnd_eq]
  exact ⟨if_pos hv, if_pos hv⟩

theorem frameLine_rowEnd_nextRow (hrows : WholeRows p c) (h0 : r.adjRem = 0) (hv : r.vCounter.toNat < lastRow p c) :
    frameLine p c (rowEnd p c f r) = (r.vCounter.toNat + 1) * rowHeight c := by
  obtain ⟨hadj, hrow⟩ := rowEnd_nextRow (f := f) hrows h0 hv
  rw [frameLine_of_rowStart hadj rowEnd_scanline, hrow]

theorem frameLine_rowEnd_lastRow (hv : r.vCounter.toNat = lastRow p c) :
    frameLine p c (rowEnd p c f r) = if adjustLines p c = 0 then 0 else (vertEntry p c).endLine := by
  obtain ⟨hadj, hrow⟩ := rowEnd_lastRow (f := f) hv
  split
  · next hnone => rw [frameLine_of_rowStart (hadj.trans hnone) rowEnd_scanline, hrow]; exact Nat.zero_mul _
  · next hsome => rw [frameLine_of_pad (by rwa [hadj]), hadj, Nat.sub_self, Nat.add_zero]

theorem rowEnd_onNextLine (hrows : WholeRows p c) (h0 : r.adjRem = 0) (h1 : r.scanline.toNat = rowHeight c - 1)
    (hin : InFrame p c r) : OnNextLine p c r (rowEnd p c f r) := by
  have hline := frameLine_of_rowEnd (p := p) h0 h1
  rcases ((inFrame_of_row h0).mp hin).2.lt_or_eq with hv | hv
  · obtain ⟨hadj, hrow⟩ := rowEnd_nextRow (f := f) hrows h0 hv
    refine onNextLine_of_succ hrows (inFrame_of_rowStart hadj rowEnd_scanline (by omega)) ?_
    rw [frameLine_rowEnd_nextRow hrows h0 hv, hline]
  · obtain ⟨hadj, hrow⟩ := rowEnd_lastRow (f := f) hv
    rw [hv, ← hrows.endLine] at hline
    have hnew := frameLine_rowEnd_lastRow (f := f) hv
    by_cases hnone : adjustLines p c = 0
    · refine onNextLine_of_top (inFrame_of_rowStart (hadj.trans hnone) rowEnd_scanline (by simp [hrow])) ?_ ?_
      · rw [hnew, if_pos hnone]
      · have : (vertEntry p c).adj = 0 := hnone
        rw [hline, totalLines, this]
        rfl
    · refine onNextLine_of_succ hrows ((inFrame_of_pad (by rwa [hadj])).mpr ⟨hrow, by simp [hadj]⟩) ?_
      rw [hnew, if_neg hnone, hline]

/-- The last pad line is followed by the top of the frame. -/
theorem adjustStep_last (h1 : r.adjRem = 1) (hin : InFrame p c r) :
    OnNextLine p c r (adjustStep c r) ∧ frameLine p c (adjustStep c r) = 0 := by
  obtain ⟨hv, ha⟩ := (inFrame_of_pad (by simp [h1])).mp hin
  have hadj : (adjustStep c r).adjRem = 0 := by rw [adjustStep_eq, h1]; rfl
  have hrow : (adjustStep c r).vCounter = 0 := by rw [adjustStep_eq, hv]
  have hs : (adjustStep c r).scanline = 0 := by rw [adjustStep_eq, if_pos h1]
  have htop : frameLine p c (adjustStep c r) = 0 := by
    rw [frameLine_of_rowStart hadj hs, hrow]; exact Nat.zero_mul _
  refine ⟨onNextLine_of_top (inFrame_of_rowStart hadj hs (by simp [hrow])) htop ?_, htop⟩
  rw [frameLine_of_pad (by simp [h1]), totalLines, ← adjustLines]
  bv_omega

/-- Any other pad line is followed by a pad line. -/
theorem adjustStep_more (hrows : WholeRows p c) (h0 : r.adjRem ≠ 0) (h1 : r.adjRem ≠ 1) (hin : InFrame p c r) :
    OnNextLine p c r (adjustStep c r) ∧ (vertEntry p c).endLine ≤ frameLine p c (adjustStep c r) := by
  obtain ⟨hv, ha⟩ := (inFrame_of_pad h0).mp hin
  have hadj : (adjustStep c r).adjRem = r.adjRem - 1 := by rw [adjustStep_eq]
  have hrow : (adjustStep c r).vCounter = 0 := by rw [adjustStep_eq, hv]
  have h0' : (adjustStep c r).adjRem ≠ 0 := by rw [hadj]; bv_omega
  refine ⟨onNextLine_of_succ hrows ((inFrame_of_pad h0').mpr ⟨hrow, by rw [hadj]; bv_omega⟩) ?_, ?_⟩
  all_goals rw [frameLine_of_pad h0']
  · rw [frameLine_of_pad h0, hadj]
    bv_omega
  · exact Nat.le_add_right _ _

/-- The vertical advance moves the raster by one line of its frame (R262). -/
theorem verticalAdvance_onNextLine (hrows : WholeRows p c) (hin : InFrame p c r) :
    OnNextLine p c r (verticalAdvance p c f r) := by
  obtain ⟨h0, e⟩ | ⟨h0, h1, e⟩ | ⟨h0, h1, e⟩ := verticalAdvance_cases p c f r
  all_goals rw [e]
  · by_cases h1 : r.adjRem = 1
    · exact (adjustStep_last h1 hin).1
    · exact (adjustStep_more hrows h0 h1 hin).1
  · exact rowEnd_onNextLine hrows h0 h1 hin
  · exact onNextLine_of_succ hrows (inFrame_nextScanline h0 h1 hin) (frameLine_nextScanline h0 hin)

/-! ### The display on the first VIS lines -/

/-- The display is on exactly on the first VIS lines of the frame (R262). -/
def DisplaysVisLines (p : Params) (c : Regs) (r : Raster) : Prop :=
  r.dispOn = decide (frameLine p c r < (vertEntry p c).vis)

theorem displays_of_row (hrows : WholeRows p c) (h0 : r.adjRem = 0) (hs : r.scanline.toNat < rowHeight c) :
    DisplaysVisLines p c r ↔ r.dispOn = decide (r.vCounter.toNat < displayedRows p c) := by
  rw [DisplaysVisLines, frameLine_of_row h0, hrows.vis, decide_eq_decide.mpr (line_lt_rows_iff hs)]

theorem displays_of_rowStart (hrows : WholeRows p c) (h0 : r.adjRem = 0) (hs : r.scanline = 0) :
    DisplaysVisLines p c r ↔ r.dispOn = decide (r.vCounter.toNat < displayedRows p c) :=
  displays_of_row hrows h0 (by rw [hs]; exact rowHeight_pos c)

/-- Only before the frame top does the display of the old line not matter. -/
theorem displays_of_not_top {r' : Raster} (hnext : OnNextLine p c r r') (hne : frameLine p c r' ≠ 0)
    (hd : DisplaysVisLines p c r ∨ frameLine p c r + 1 = totalLines p c) : DisplaysVisLines p c r :=
  hd.resolve_right fun hlast => hne (by rw [hnext.line, hlast, Nat.mod_self])

theorem displayedRows_le_vsyncRow (hrows : WholeRows p c) (hle : (vertEntry p c).vis ≤ (vertEntry p c).vsync) :
    displayedRows p c ≤ vsyncRow p c := by
  rw [hrows.vis, hrows.vsync] at hle
  exact Nat.le_of_mul_le_mul_right hle (rowHeight_pos c)

theorem displayedRows_pos (hrows : WholeRows p c) (hpos : 0 < (vertEntry p c).vis) : 0 < displayedRows p c := by
  rw [hrows.vis] at hpos
  exact Nat.pos_of_mul_pos_right hpos

/-- A line at or after END shows no picture. -/
theorem displays_of_endLine_le (hrows : WholeRows p c) (hle : (vertEntry p c).vis ≤ (vertEntry p c).vsync)
    (hline : (vertEntry p c).endLine ≤ frameLine p c r) : DisplaysVisLines p c r ↔ r.dispOn = false := by
  have hD := displayedRows_le_vsyncRow hrows hle
  have hS := hrows.vsyncRow_le
  have hvis : (vertEntry p c).vis ≤ (vertEntry p c).endLine := by
    rw [hrows.vis, hrows.endLine]
    exact Nat.mul_le_mul_right _ (by omega)
  rw [DisplaysVisLines, decide_eq_false (by omega)]

theorem endLine_pos (hrows : WholeRows p c) : 0 < (vertEntry p c).endLine := by
  rw [hrows.endLine]
  exact Nat.mul_pos (Nat.succ_pos _) (rowHeight_pos c)

theorem nextScanline_displays (hrows : WholeRows p c) (h0 : r.adjRem = 0) (h1 : r.scanline.toNat ≠ rowHeight c - 1)
    (hin : InFrame p c r) (hd : DisplaysVisLines p c r) : DisplaysVisLines p c (nextScanline r) := by
  have hs := ((inFrame_of_row h0).mp hin).1
  have h0' : (nextScanline r).adjRem = 0 := h0
  have hs' := ((inFrame_of_row h0').mp (inFrame_nextScanline h0 h1 hin)).1
  exact (displays_of_row hrows h0' hs').mpr ((displays_of_row hrows h0 hs).mp hd)

/-- The display after the end of a row, from the row constants as numbers (R273). -/
theorem rowEnd_dispOn :
    (rowEnd p c f r).dispOn =
      if (rowEnd p c f r).vCounter.toNat = vsyncRow p c then false
      else if r.vCounter.toNat = lastRow p c ∧ adjustLines p c = 0 then true
      else if (r.vCounter + 1).toNat = displayedRows p c then false else r.dispOn := by
  rw [rowEnd_eq]

/-- Display end and VSync row do what the count of rows says. -/
theorem rowEnd_nextRow_displays (hrows : WholeRows p c) (hle : (vertEntry p c).vis ≤ (vertEntry p c).vsync)
    (h0 : r.adjRem = 0) (hv : r.vCounter.toNat < lastRow p c) (hs : r.scanline.toNat < rowHeight c)
    (hd : DisplaysVisLines p c r) : DisplaysVisLines p c (rowEnd p c f r) := by
  have hD := displayedRows_le_vsyncRow hrows hle
  obtain ⟨hadj, hrow⟩ := rowEnd_nextRow (f := f) hrows h0 hv
  have hlt := hrows.lastRow_lt
  have hnext : (r.vCounter + 1).toNat = r.vCounter.toNat + 1 := by bv_omega
  rw [displays_of_rowStart hrows hadj rowEnd_scanline, rowEnd_dispOn, hrow, hnext,
    if_neg (fun h : _ ∧ _ => hv.ne h.1), (displays_of_row hrows h0 hs).mp hd]
  split_ifs
  · rw [decide_eq_false (by omega)]
  · rw [decide_eq_false (by omega)]
  · rw [decide_eq_decide]
    omega

theorem rowEnd_lastRow_displays (hrows : WholeRows p c) (hpos : 0 < (vertEntry p c).vis)
    (hle : (vertEntry p c).vis ≤ (vertEntry p c).vsync) (h0 : r.adjRem = 0) (hv : r.vCounter.toNat = lastRow p c)
    (hs : r.scanline.toNat < rowHeight c) (hd : adjustLines p c ≠ 0 → DisplaysVisLines p c r) :
    DisplaysVisLines p c (rowEnd p c f r) := by
  have hD := displayedRows_le_vsyncRow hrows hle
  have hDpos := displayedRows_pos hrows hpos
  have hS := hrows.vsyncRow_le
  obtain ⟨hadj, hrow⟩ := rowEnd_lastRow (f := f) hv
  have hsync : ¬ (rowEnd p c f r).vCounter.toNat = vsyncRow p c := by
    rw [hrow]
    exact (hDpos.trans_le hD).ne
  by_cases hnone : adjustLines p c = 0
  · rw [displays_of_rowStart hrows (hadj.trans hnone) rowEnd_scanline, rowEnd_dispOn, if_neg hsync, if_pos ⟨hv, hnone⟩,
      hrow]
    exact (decide_eq_true hDpos).symm
  · have hoff : r.dispOn = false := by
      rw [(displays_of_row hrows h0 hs).mp (hd hnone), decide_eq_false (by omega)]
    rw [displays_of_endLine_le hrows hle (by rw [frameLine_rowEnd_lastRow hv, if_neg hnone]), rowEnd_dispOn,
      if_neg hsync, if_neg (fun h : _ ∧ _ => hnone h.2), hoff, ite_self]

theorem adjustStep_dispOn : (adjustStep c r).dispOn = if r.adjRem = 1 then true else r.dispOn := by rw [adjustStep_eq]

/-- The vertical advance keeps the display on exactly on the first VIS lines, and the frame top starts it so (R262). -/
theorem verticalAdvance_displays (hrows : WholeRows p c) (hpos : 0 < (vertEntry p c).vis)
    (hle : (vertEntry p c).vis ≤ (vertEntry p c).vsync) (hin : InFrame p c r)
    (hd : DisplaysVisLines p c r ∨ frameLine p c r + 1 = totalLines p c) :
    DisplaysVisLines p c (verticalAdvance p c f r) := by
  have hnext := verticalAdvance_onNextLine (f := f) hrows hin
  obtain ⟨h0, e⟩ | ⟨h0, h1, e⟩ | ⟨h0, h1, e⟩ := verticalAdvance_cases p c f r
  all_goals rw [e] at hnext ⊢
  · by_cases h1 : r.adjRem = 1
    · rw [DisplaysVisLines, (adjustStep_last h1 hin).2, decide_eq_true hpos, adjustStep_dispOn, if_pos h1]
    · have hpad := (adjustStep_more hrows h0 h1 hin).2
      have hold := displays_of_not_top hnext ((endLine_pos hrows).trans_le hpad).ne' hd
      rw [displays_of_endLine_le hrows hle (by rw [frameLine_of_pad h0]; exact Nat.le_add_right _ _)] at hold
      rw [displays_of_endLine_le hrows hle hpad, adjustStep_dispOn, if_neg h1, hold]
  · obtain ⟨hs, hv⟩ := (inFrame_of_row h0).mp hin
    rcases hv.lt_or_eq with hv | hv
    · refine rowEnd_nextRow_displays hrows hle h0 hv hs (displays_of_not_top hnext ?_ hd)
      rw [frameLine_rowEnd_nextRow hrows h0 hv]
      exact (Nat.mul_pos (Nat.succ_pos _) (rowHeight_pos c)).ne'
    · refine rowEnd_lastRow_displays hrows hpos hle h0 hv hs fun hsome => displays_of_not_top hnext ?_ hd
      rw [frameLine_rowEnd_lastRow hv, if_neg hsome]
      exact (endLine_pos hrows).ne'
  · refine nextScanline_displays hrows h0 h1 hin (displays_of_not_top hnext ?_ hd)
    rw [frameLine_nextScanline h0 hin]
    exact Nat.succ_ne_zero _

end

/-! ### The raster of a TICK within its frame -/

/-- An advancing TICK is on the next line: neither the countdown nor the last two actions move the raster. -/
theorem advancedDevice_onNextLine {p : Params} {d : Device} (hrows : WholeRows p d.regs)
    (hin : InFrame p d.regs d.raster) : OnNextLine p d.regs d.raster (advancedDevice p d).raster := by
  obtain ⟨hin', hline⟩ := verticalAdvance_onNextLine (r := (countedDevice p d).raster)
    (f := (countedDevice p d).frame) hrows hin
  rw [advancedDevice_raster]
  exact ⟨hin', hline⟩

/-- Settles O58: a rendering TICK leaves the counters of the line alone, an advancing one is on the next line. -/
theorem advancingTickMovesOneFrameLine : Obligations.AdvancingTickMovesOneFrameLine := by
  unfold Obligations.AdvancingTickMovesOneFrameLine
  intro s d hd
  rw [← vertEntry_eq]
  intro e hwf hin hr
  cases hh : d.raster.half with
  | blank => exact ⟨_, _, execTick_blank hd hh (hr.resolve_left (by simp [hh])), rfl, hin, rfl⟩
  | visible =>
    obtain ⟨hin', hline⟩ := advancedDevice_onNextLine (wholeRows_of_wf hwf) hin
    exact ⟨_, _, execTick_advances hd hh, rfl, hin', hline⟩

/-- Settles O60: the vertical advance keeps the display right for the line of the committed raster. -/
theorem advancingTickKeepsDisplayOnExactlyVisLines : Obligations.AdvancingTickKeepsDisplayOnExactlyVisLines := by
  unfold Obligations.AdvancingTickKeepsDisplayOnExactlyVisLines
  intro s d hd hh
  rw [← vertEntry_eq]
  intro e hwf hpos hle hin hdisp
  refine ⟨_, _, execTick_advances hd hh, rfl, ?_⟩
  rw [advancedDevice_raster]
  exact verticalAdvance_displays (r := (countedDevice s.params d).raster) (wholeRows_of_wf hwf) hpos hle hin hdisp

/-! ### Whole lines -/

theorem SameStores.trans {d d' d'' : Device} (h : SameStores d d') (h' : SameStores d' d'') : SameStores d d'' :=
  ⟨h'.regs.trans h.regs, h'.palette.trans h.palette, h'.vram.trans h.vram, h'.config.trans h.config⟩

theorem commit_commit (s : State) (d d' : Device) (out out' : List Event) :
    (s.commit d out).commit d' out' = s.commit d' (out ++ out') := by
  simp only [State.commit, List.append_assoc]

/-- The device after a rendering TICK and the advancing TICK that follows it. -/
def lineDevice (p : Params) (d : Device) : Device := advancedDevice p (renderedDevice p d)

/-- LINE (R153) from the blank half, where the rendering TICK is not refused. -/
theorem execSeq_pseudoLine {s : State} {d : Device} (h : s.device = some d) (hh : d.raster.half = .blank)
    (hr : Renders s.params d) :
    ∃ out, execSeq pseudoLine s = .next (s.commit (lineDevice s.params d) out) := by
  have hrender := execTick_blank h hh hr
  have hadvance := execTick_advances (State.commit_device s (renderedDevice s.params d)
    [.line d.raster.displayLine (tickLine s.params d) d.regs.mode]) rfl
  rw [commit_commit] at hadvance
  exact ⟨_, (execSeq_cons hrender _).trans (execSeq_cons hadvance _)⟩

theorem lineDevice_sameStores (p : Params) (d : Device) : SameStores d (lineDevice p d) := ⟨rfl, rfl, rfl, rfl⟩

/-- The rendering TICK of the line moves no counter. -/
theorem lineDevice_onNextLine {p : Params} {d : Device} (hrows : WholeRows p d.regs) (hin : InFrame p d.regs d.raster) :
    OnNextLine p d.regs d.raster (lineDevice p d).raster := by
  obtain ⟨hin', hline⟩ := advancedDevice_onNextLine (d := renderedDevice p d) hrows hin
  exact ⟨hin', hline⟩

/-- The state `t` with its device `d'` is `n` whole lines after `s` with `d`, again before a rendering TICK. -/
structure LinesAfter (n : Nat) (s : State) (d : Device) (t : State) (d' : Device) : Prop where
  device : t.device = some d'
  params : t.params = s.params
  stores : SameStores d d'
  half : d'.raster.half = .blank
  inFrame : InFrame t.params d'.regs d'.raster
  line : frameLine t.params d'.regs d'.raster = (frameLine s.params d.regs d.raster + n) % totalLines s.params d.regs

theorem linesAfter_zero {s : State} {d : Device} (hd : s.device = some d) (hrows : WholeRows s.params d.regs)
    (hh : d.raster.half = .blank) (hin : InFrame s.params d.regs d.raster) : LinesAfter 0 s d s d :=
  ⟨hd, rfl, ⟨rfl, rfl, rfl, rfl⟩, hh, hin, (Nat.mod_eq_of_lt (frameLine_lt hrows hin)).symm⟩

/-- One line more. -/
theorem linesAfter_succ {n : Nat} {s t : State} {d d' : Device} (hrows : WholeRows s.params d.regs)
    (h : LinesAfter n s d t d') (hr : Renders t.params d') :
    ∃ t' d'', execSeq pseudoLine t = .next t' ∧ LinesAfter (n + 1) s d t' d'' := by
  obtain ⟨hdev, hparams, hstores, hhalf, hin, hline⟩ := h
  obtain ⟨out, hexec⟩ := execSeq_pseudoLine hdev hhalf hr
  obtain ⟨hin', hline'⟩ := lineDevice_onNextLine (by rw [hparams, hstores.regs]; exact hrows) hin
  refine ⟨_, _, hexec, rfl, hparams, hstores.trans (lineDevice_sameStores _ _), advancedDevice_half _ _, hin',
    hline'.trans ?_⟩
  rw [hline, hparams, hstores.regs, Nat.mod_add_mod, Nat.add_assoc]

theorem pseudoTicks_succ_line (n : Nat) : pseudoTicks (2 * (n + 1)) = pseudoTicks (2 * n) ++ pseudoLine :=
  List.replicate_add (2 * n) 2 Instr.tick

/-- `n` whole lines, by induction on `n`; the line rendered last is the one the premise's last `m` speaks of. -/
theorem execSeq_lines {s : State} {d : Device} (hd : s.device = some d) (hrows : WholeRows s.params d.regs)
    (hh : d.raster.half = .blank) (hin : InFrame s.params d.regs d.raster) (n : Nat)
    (hr : ∀ m t d', m < n → execSeq (pseudoTicks (2 * m)) s = .next t → t.device = some d' → Renders s.params d') :
    ∃ t d', execSeq (pseudoTicks (2 * n)) s = .next t ∧ LinesAfter n s d t d' := by
  induction n with
  | zero => exact ⟨s, d, rfl, linesAfter_zero hd hrows hh hin⟩
  | succ n ih =>
    obtain ⟨t, d', hexec, hafter⟩ := ih fun m t d' hm => hr m t d' (Nat.lt_succ_of_lt hm)
    have hrender := hr n t d' (Nat.lt_succ_self n) hexec hafter.device
    rw [← hafter.params] at hrender
    obtain ⟨t', d'', hexec', hafter'⟩ := linesAfter_succ hrows hafter hrender
    exact ⟨t', d'', by rw [pseudoTicks_succ_line, execSeq_append hexec, hexec'], hafter'⟩

/-- Settles O59: `2 * n` TICKs are `n` whole lines. -/
theorem frameTakesExactlyTotalLines : Obligations.FrameTakesExactlyTotalLines := by
  unfold Obligations.FrameTakesExactlyTotalLines
  intro n s d hd
  rw [← vertEntry_eq]
  intro e hwf hin hh hr
  obtain ⟨t, d', hexec, hdev, hparams, hstores, hhalf, hin', hline⟩ :=
    execSeq_lines hd (wholeRows_of_wf hwf) hh hin n hr
  rw [hparams] at hin' hline
  exact ⟨t, d', hexec, hdev, hstores, hhalf, hin', hline⟩

end Sys2Proof.Machine

/-! PROOFS of the family of spec/42_renderer.md: the variant decode (O40), the border line (O31), the pixels of a text line
(O41), and what a graphics line does not depend on (O45). -/

namespace Sys2Proof.Machine

/-! ### The variant decode -/

/-- The four branches of the decode with the bits that lead to each (R320). -/
theorem variantOf_cases (mode : Byte) :
    (mode.getLsbD 0 = true ∧ variantOf mode = .text80) ∨
    (mode.getLsbD 0 = false ∧ mode.getLsbD 1 = false ∧ variantOf mode = .text40) ∨
    (mode.getLsbD 0 = false ∧ mode.getLsbD 1 = true ∧ mode.getLsbD 4 = false ∧ variantOf mode = .graphics320) ∨
    (mode.getLsbD 0 = false ∧ mode.getLsbD 1 = true ∧ mode.getLsbD 4 = true ∧ variantOf mode = .graphics640) := by
  unfold variantOf
  cases mode.getLsbD 0 with
  | true => simp
  | false =>
    cases mode.getLsbD 1 with
    | false => simp
    | true => cases mode.getLsbD 4 <;> simp

/-- Settles O40: the branches of the decode exclude each other by their bits. -/
theorem variantDecodeFollowsModeBits : Obligations.VariantDecodeFollowsModeBits := by
  unfold Obligations.VariantDecodeFollowsModeBits
  intro mode
  obtain ⟨h0, hv⟩ | ⟨h0, h1, hv⟩ | ⟨h0, h1, h4, hv⟩ | ⟨h0, h1, h4, hv⟩ := variantOf_cases mode
  · rw [hv, h0]; simp
  · rw [hv, h0, h1]; simp
  · rw [hv, h0, h1, h4]; simp
  · rw [hv, h0, h1, h4]; simp

/-! ### The border line -/

/-- The border colour from the register bits (R346, R320). -/
theorem borderColour_eq (c : Regs) :
    borderColour c =
      if c.mode.getLsbD 0 = false ∧ c.mode.getLsbD 1 = true ∧ c.mode.getLsbD 4 = true then 0
      else c.colorSelect.extractLsb' 0 4 := by
  obtain ⟨-, -, -, h640⟩ := variantDecodeFollowsModeBits c.mode
  simp only [← h640]
  rfl

/-- With the display off, a rendering TICK moves neither the address nor any other counter (R264, R346). -/
theorem renderedRaster_border {d : Device} (hoff : d.raster.dispOn = false) :
    renderedRaster d = { d.raster with half := .visible, displayLine := d.raster.displayLine + 1 } := by
  simp [renderedRaster, hoff]

/-- With the display off, the bounds stay (R265). -/
theorem renderedFrame_border {d : Device} (hoff : d.raster.dispOn = false) (p : Params) :
    renderedFrame p d = { d.frame with frameLines := (renderedFrame p d).frameLines } := by
  simp [renderedFrame, hoff]

theorem tickLine_border {d : Device} (hoff : d.raster.dispOn = false) (p : Params) :
    tickLine p d = borderFill d.regs := by
  simp [tickLine, hoff]

/-- Settles O31: the device a rendering TICK commits with the display off, and the border pixel by pixel. -/
theorem borderLineIsFlatAndMovesNoAddress : Obligations.BorderLineIsFlatAndMovesNoAddress := by
  unfold Obligations.BorderLineIsFlatAndMovesNoAddress
  refine ⟨fun s d hd hh hoff => ⟨_, renderedDevice s.params d, execTick_blank hd hh (.inl hoff), rfl, ?_, ?_, ?_⟩,
    fun c x => ?_⟩
  · rw [State.commit_events, tickLine_border hoff]
  · simp only [renderedDevice, renderedRaster_border hoff]
  · exact renderedFrame_border hoff s.params
  · exact (tabulate_getElem _ _ _ x.isLt).trans (borderColour_eq c)

/-! ### The pixels of a line -/

/-- A pixel of a line by its place (R321). -/
theorem renderLine_getElem_option (p : Params) (d : Device) {x : Nat} (hx : x < 640) :
    (renderLine p d)[x]? = some (renderPixel p d x) := tabulate_getElem_option 640 _ x hx

/-- A pixel of a Text80 line: cells are 8 pixels wide (R329). -/
theorem renderPixel_text80 {d : Device} (h : variant d.regs = .text80) (p : Params) {x i b : Nat} (hb : b < 8)
    (hx : x = 8 * i + b) : renderPixel p d x = textPixel p d i (shadowCell d i) b := by
  have hcell : x / 8 = i := by omega
  have hcolumn : x % 8 = b := by omega
  simp only [renderPixel, h, hcell, hcolumn]

/-- A pixel of a Text40 line: cells are 16 pixels wide, and each column is two pixels (R331). -/
theorem renderPixel_text40 {d : Device} (h : variant d.regs = .text40) (p : Params) {x i b : Nat} (hb : b < 8)
    (hx : x = 16 * i + 2 * b ∨ x = 16 * i + 2 * b + 1) : renderPixel p d x = textPixel p d i (vramCell d i) b := by
  have hcell : x / 16 = i := by omega
  have hcolumn : x % 16 / 2 = b := by omega
  simp only [renderPixel, h, hcell, hcolumn]

/-- The Text80 cell fetch from the two shadow bytes (R325). -/
theorem shadowCell_eq {d : Device} {i : Nat} {chr attr : Byte} (hchr : d.raster.shadow[2 * i]? = some chr)
    (hattr : d.raster.shadow[2 * i + 1]? = some attr) : shadowCell d i = { chr := chr, attr := attr } := by
  rw [shadowCell, hchr, hattr, Option.getD_some, Option.getD_some]

/-- The Text40 cell fetch with the wrap of each byte's address written out (R323, R326). -/
theorem vramCell_eq (d : Device) (i : Nat) :
    vramCell d i =
      { chr := d.vramAt (2 * (d.raster.memAddr.toNat + i) % 0x4000)
        attr := d.vramAt ((2 * (d.raster.memAddr.toNat + i) + 1) % 0x4000) } := by
  rw [vramCell, cellAddr, Nat.mod_add_mod]

/-- Settles O41: the pixel's place gives its cell and column, and the cell is the one the variant fetches. -/
theorem textLinesShowEachGlyphColumn : Obligations.TextLinesShowEachGlyphColumn := by
  unfold Obligations.TextLinesShowEachGlyphColumn
  intro p d b
  constructor
  · intro hv i chr attr hchr hattr
    rw [renderLine_getElem_option p d (by omega), renderPixel_text80 hv p b.isLt rfl, shadowCell_eq hchr hattr]
  · intro hv i a c
    have hc : textPixel p d i (vramCell d i) b = c := by rw [vramCell_eq]
    rw [renderLine_getElem_option p d (by omega), renderLine_getElem_option p d (by omega),
      renderPixel_text40 hv p b.isLt (.inl rfl), renderPixel_text40 hv p b.isLt (.inr rfl), hc]
    exact ⟨rfl, rfl⟩

/-! ### What a graphics line depends on -/

/-- The same inputs of a graphics line (R335-R338): `mode` and `colorSelect`, the video memory, the address of the row, and
the effective scanline, which chooses the bank. -/
structure SameGraphicsInputs (p : Params) (d d' : Device) : Prop where
  mode : d'.regs.mode = d.regs.mode
  colorSelect : d'.regs.colorSelect = d.regs.colorSelect
  vram : d'.vram = d.vram
  memAddr : d'.raster.memAddr = d.raster.memAddr
  scanline : effectiveScanline p d' = effectiveScanline p d

section
variable {p : Params} {d d' : Device}

theorem graphicsWord_congr (h : SameGraphicsInputs p d d') (w : Nat) : graphicsWord p d' w = graphicsWord p d w := by
  simp only [graphicsWord, graphicsAddr, Device.vramAt, h.vram, h.memAddr, h.scanline]

/-- The colour set depends on `mode` and `colorSelect` only (R336). -/
theorem graphics320Colour_congr {c c' : Regs} (hmode : c'.mode = c.mode) (hselect : c'.colorSelect = c.colorSelect) :
    graphics320Colour c' = graphics320Colour c := by
  have hcolour : csColor c' = csColor c := congrArg (BitVec.extractLsb' 0 4) hselect
  have hintensity : csIntensity c' = csIntensity c := congrArg (BitVec.getLsbD · 4) hselect
  have hpalette : csPalette c' = csPalette c := congrArg (BitVec.getLsbD · 5) hselect
  have hbw : modeBw c' = modeBw c := congrArg (BitVec.getLsbD · 2) hmode
  unfold graphics320Colour
  rw [hcolour, hintensity, hpalette, hbw]

theorem graphics320Pixel_congr (h : SameGraphicsInputs p d d') (w q : Nat) :
    graphics320Pixel p d' w q = graphics320Pixel p d w q := by
  rw [graphics320Pixel, graphics320Pixel, graphicsWord_congr h, graphics320Colour_congr h.mode h.colorSelect]

theorem graphics640Pixel_congr (h : SameGraphicsInputs p d d') (w q : Nat) :
    graphics640Pixel p d' w q = graphics640Pixel p d w q := by
  simp only [graphics640Pixel, graphicsWord_congr h, csColor, h.colorSelect]

/-- In a graphics variant the inputs above decide every pixel. -/
theorem renderPixel_graphics_congr (h : SameGraphicsInputs p d d') (hg : (variant d.regs).isText = false) (x : Nat) :
    renderPixel p d' x = renderPixel p d x := by
  have hv : variant d'.regs = variant d.regs := congrArg variantOf h.mode
  unfold renderPixel
  rw [hv]
  cases hvar : variant d.regs with
  | text80 | text40 => simp [hvar, Variant.isText] at hg
  | graphics320 => exact graphics320Pixel_congr h _ _
  | graphics640 => exact graphics640Pixel_congr h _ _

theorem renderLine_graphics_congr (h : SameGraphicsInputs p d d') (hg : (variant d.regs).isText = false) :
    renderLine p d' = renderLine p d :=
  congrArg (tabulate 640) (funext (renderPixel_graphics_congr h hg))

/-- Of the extended registers, the effective scanline reads ext[0x65] only (R42, R324). -/
theorem effectiveScanline_congr (hext : d'.regs.ext[0x65] = d.regs.ext[0x65])
    (hscan : d'.raster.scanline = d.raster.scanline) (hframe : d'.frame = d.frame) :
    effectiveScanline p d' = effectiveScanline p d := by
  simp only [effectiveScanline, isInterlaced_eq, hext, hscan, hframe]

end

/-- Settles O45: the text state is none of the inputs of a graphics line; ext[0x66] stands beside the byte that holds the
height code. -/
theorem graphicsLinesIgnoreTextState : Obligations.GraphicsLinesIgnoreTextState := by
  unfold Obligations.GraphicsLinesIgnoreTextState
  intro p d flags r10 r11 r14 r15 con blink shadow hg
  have hext : (d.regs.ext.set 0x66 flags)[0x65] = d.regs.ext[0x65] := Vector.getElem_set_ne _ _ (by decide)
  exact renderLine_graphics_congr ⟨rfl, rfl, rfl, rfl, effectiveScanline_congr hext rfl rfl⟩ hg

end Sys2Proof.Machine

/-! PROOFS of the family of spec/43_attribute_palette.md: every step keeps the invariant (O56), the CGA mapping of
an attr byte (O46), and the colour of a palette entry (O48). -/

namespace Sys2Proof.Machine

/-! ### The colour of a palette entry -/

/-- `PalEntry(k)` reads the two bytes of its register pair and nothing else (R382). -/
theorem palEntry_eq (p : Params) (c : Regs) (k : Fin 16) :
    palEntry p c k = pairColour p.palFmt (c.ext[0x40 + 2 * k.val]'(by omega)) (c.ext[0x41 + 2 * k.val]'(by omega)) := by
  rw [palEntry, extAt_of_lt c _ (by omega), extAt_of_lt c _ (by omega)]

/-- The truncated scaling fits a byte (R381). -/
theorem scaleChannel_toNat (x : BitVec 3) : (scaleChannel x).toNat = x.toNat * 255 / 7 := by
  have hx := x.isLt
  rw [scaleChannel, BitVec.toNat_ofNat, Nat.mod_eq_of_lt (by omega)]

/-- A 3-bit field of a register pair as a number. -/
theorem word16_field_toNat (b0 b1 : Byte) (i : Nat) :
    ((word16 b0 b1).extractLsb' i 3).toNat = (b0.toNat * 256 + b1.toNat) / 2 ^ i % 8 := by
  rw [BitVec.extractLsb'_toNat, word16_toNat, Nat.shiftRight_eq_div_pow]

/-- The reference palette format takes three 3-bit fields: the low bits of the first byte, and the low bits of each nibble
of the second (R380, log 9). -/
theorem pairColour_reference (b0 b1 : Byte) :
    pairColour Params.reference.palFmt b0 b1 =
      { r := scaleChannel ((word16 b0 b1).extractLsb' 8 3)
        g := scaleChannel ((word16 b0 b1).extractLsb' 4 3)
        b := scaleChannel ((word16 b0 b1).extractLsb' 0 3) } := by
  have hr : pairChannel Params.reference.palFmt.r (word16 b0 b1) = (word16 b0 b1).extractLsb' 8 3 :=
    pairChannel_copy 8 9 10 _ rfl rfl
  have hg : pairChannel Params.reference.palFmt.g (word16 b0 b1) = (word16 b0 b1).extractLsb' 4 3 :=
    pairChannel_copy 4 5 6 _ rfl rfl
  have hb : pairChannel Params.reference.palFmt.b (word16 b0 b1) = (word16 b0 b1).extractLsb' 0 3 :=
    pairChannel_copy 0 1 2 _ rfl rfl
  simp only [pairColour, hr, hg, hb]

/-- Settles O48: each channel of the entry is the scaling of one field of the pair. -/
theorem paletteEntryScalesTheThreeFields : Obligations.PaletteEntryScalesTheThreeFields := by
  unfold Obligations.PaletteEntryScalesTheThreeFields
  intro p c k b0 b1 hfmt h0 h1
  have e0 := (Vector.getElem?_eq_some_iff.mp h0).2
  have e1 := (Vector.getElem?_eq_some_iff.mp h1).2
  have hb1 := b1.isLt
  rw [palEntry_eq, e0, e1, hfmt, pairColour_reference]
  simp only [scaleChannel_toNat, word16_field_toNat]
  refine ⟨?_, ?_, ?_⟩ <;> congr 2 <;> omega

/-! ### The CGA mapping -/

/-- The blink bit of an attr byte as a bound on its value (R371). -/
theorem attr_getLsbD_seven_iff (attr : Byte) : attr.getLsbD 7 = true ↔ 0x80 ≤ attr.toNat := by
  rw [← decide_eq_true_iff (p := 0x80 ≤ attr.toNat)]
  exact Eq.congr_left ((BitVec.msb_eq_getLsbD_last attr).symm.trans (BitVec.msb_eq_decide attr))

/-- When the blink is active: mode bit 5 enables it, in the upper half of the blink counter's cycle (R57, R371). -/
theorem blinkActive_iff (d : Device) :
    blinkActive d = true ↔ d.regs.mode.getLsbD 5 = true ∧ d.frame.blinkCounter.getLsbD 3 = true := by
  simp only [blinkActive, modeBlink, blinkTop, Bool.and_eq_true]

theorem attrMap_of_cga {p : Params} {d : Device} (h : d.regs.ext[0x66].getLsbD p.monoBit = false) (attr : Byte) (dc : Bool) :
    attrMap p d attr dc = cgaMap (blinkActive d) attr dc := by
  have hmono : ¬ monoMapOn p d.regs = true := by rw [monoMapOn, h]; decide
  exact if_neg hmono

/-- The foreground field of an attr byte as a number (R372). -/
theorem attrForeground_toNat (attr : Byte) : (attr.extractLsb' 0 4).toNat = attr.toNat % 16 := by
  simp

/-- The background field of an attr byte as a number: bit 7 is not part of it (R372). -/
theorem attrBackground_toNat (attr : Byte) :
    ((attr.extractLsb' 4 3).setWidth 4 : Nib).toNat = attr.toNat / 16 % 8 := by
  rw [BitVec.toNat_setWidth, BitVec.extractLsb'_toNat, Nat.shiftRight_eq_div_pow]
  omega

/-- Both colours of `CgaMap` as numbers (R372): the blink hides the foreground and leaves the background alone. -/
theorem cgaMap_toNat (blinkAct : Bool) (attr : Byte) (dc : Bool) :
    (cgaMap blinkAct attr dc).2.toNat = attr.toNat / 16 % 8 ∧
    (cgaMap blinkAct attr dc).1.toNat =
      if blinkAct = true ∧ 0x80 ≤ attr.toNat ∧ dc = false then attr.toNat / 16 % 8 else attr.toNat % 16 := by
  have hhidden : (blinkAct && attr.getLsbD 7 && !dc) = true ↔ blinkAct = true ∧ 0x80 ≤ attr.toNat ∧ dc = false := by
    simp only [Bool.and_eq_true, Bool.not_eq_true', attr_getLsbD_seven_iff, and_assoc]
  unfold cgaMap
  by_cases h : blinkAct = true ∧ 0x80 ≤ attr.toNat ∧ dc = false
  · rw [if_pos (hhidden.mpr h), if_pos h]
    exact ⟨attrBackground_toNat attr, attrBackground_toNat attr⟩
  · rw [if_neg (mt hhidden.mp h), if_neg h]
    exact ⟨attrBackground_toNat attr, attrForeground_toNat attr⟩

/-- Settles O46: the mapping flag selects `CgaMap`, whose colours are two fields of the attr byte. -/
theorem cgaMapFollowsTheAttribute : Obligations.CgaMapFollowsTheAttribute := by
  unfold Obligations.CgaMapFollowsTheAttribute
  intro p d attr dc hmono
  simp only [attrMap_of_cga hmono, ← blinkActive_iff]
  exact cgaMap_toNat (blinkActive d) attr dc

/-! ### The invariant of the device -/

/-- The invariant speaks of the memory, the palette, the extended registers and the CRTC registers only. -/
theorem Device.Inv.congr {p : Params} {d d' : Device} (h : d.Inv p) (hvram : d'.vram = d.vram)
    (hpalette : d'.palette = d.palette) (hext : d'.regs.ext = d.regs.ext) (hcrtc : d'.regs.crtc = d.regs.crtc) :
    d'.Inv p where
  memory := hvram ▸ h.memory
  palette k := by
    rw [hpalette, h.palette k]
    simp only [palEntry_eq, hext]
  crtc i := by
    rw [hcrtc]
    exact h.crtc i

/-- A TICK leaves everything the invariant speaks of alone (R263). -/
theorem tickDevice_inv {p : Params} {d d' : Device} {out : List Event} (h : d.Inv p)
    (hdone : tickDevice p d = .done d' out) : d'.Inv p := by
  obtain ⟨hregs, hpalette, hvram, -⟩ := tickDevice_sameStores hdone
  exact h.congr hvram hpalette (by rw [hregs]) (by rw [hregs])

/-- The device ATTACH creates has the invariant, whatever the parameters (R600). -/
theorem attachedDevice_inv (p : Params) (cfg : HostConfig) : (attachedDevice p cfg).Inv p where
  memory := Memory.wf_nil
  palette k := tabulate_getElem 16 _ k k.isLt
  crtc := crtcMasked_of_zero fun i => by simp [attachedDevice, attachedRegs]

/-- A byte stored in the window keeps the memory canonical (R213). -/
theorem Device.Inv.writeVram {p : Params} {d : Device} (h : d.Inv p) (addr : BitVec 20) (v : Byte) :
    ({ d with vram := Memory.write d.vram (vramOffset addr) v } : Device).Inv p :=
  { h with memory := Memory.wf_write h.memory (vramOffset_lt addr) v }

/-- What is stored under a mask has no bit outside it. -/
theorem and_mask_and_not_mask (v mask : Byte) : v &&& mask &&& ~~~mask = 0 := by
  rw [BitVec.and_assoc, BitVec.and_not_self]
  exact BitVec.and_zero

/-- The masked store keeps every CRTC register masked (R32, R201). -/
theorem Device.Inv.setCrtcData {p : Params} {d : Device} (h : d.Inv p) (v : Byte) :
    ({ d with regs := setCrtcData p v d.regs } : Device).Inv p :=
  { h with
    crtc := fun i => by
      rw [setCrtcData_crtc_getElem]
      split
      · exact and_mask_and_not_mask v _
      · exact h.crtc i }

/-- A store outside its register pair does not change a palette entry (R382). -/
theorem palEntry_setExtData_of_ne {p : Params} {c : Regs} {k : Fin 16} (v : Byte)
    (hne : ¬ (c.extIndex.val = 0x40 + 2 * k.val ∨ c.extIndex.val = 0x41 + 2 * k.val)) :
    palEntry p (setExtData v c) k = palEntry p c k := by
  obtain ⟨hne0, hne1⟩ := not_or.mp hne
  have e0 := Vector.getElem_set_ne (xs := c.ext) (x := v) c.extIndex.isLt (j := 0x40 + 2 * k.val) (by omega) hne0
  have e1 := Vector.getElem_set_ne (xs := c.ext) (x := v) c.extIndex.isLt (j := 0x41 + 2 * k.val) (by omega) hne1
  rw [palEntry_eq, palEntry_eq]
  exact congrArg₂ _ e0 e1

/-- The store into the extended block keeps the palette consistent: the entry of the written pair is recomputed, and no
other entry depends on the byte (R209, R383). -/
theorem Device.Inv.setExtData {p : Params} {d : Device} (h : d.Inv p) (v : Byte) :
    ({ d with
        regs := setExtData v d.regs
        palette := paletteAfterExt p (setExtData v d.regs) d.palette d.regs.extIndex } : Device).Inv p :=
  { h with
    palette := fun k => by
      rw [paletteAfterExt_getElem]
      split
      · rfl
      · next hne => rw [h.palette k, palEntry_setExtData_of_ne v hne] }

/-! ### The invariant under an operation -/

section
variable {s t : State}

theorem onRegs_inv {f : Regs → Regs} (h : s.Inv) (hx : s.onRegs f = .next t) (hext : ∀ c, (f c).ext = c.ext)
    (hcrtc : ∀ c, (f c).crtc = c.crtc) : t.Inv :=
  onDevice_inv h (fun d _ _ hd hdone => by cases hdone; exact (h d hd).congr rfl rfl (hext _) (hcrtc _)) hx

theorem onRead_inv {out : Device → List Event} (h : s.Inv) (hx : s.onRead out = .next t) : t.Inv :=
  onDevice_inv h (fun d _ _ hd hdone => by cases hdone; exact h d hd) hx

/-- A draw of a free value is none of the invariant's business (log 13). -/
theorem State.Inv.drawn (h : s.Inv) : s.drawn.Inv := by
  intro d hd
  rw [State.drawn_params]
  exact h d ((State.drawn_device s).symm.trans hd)

/-- ATTACH leaves a fresh device or none (R600, R502). -/
theorem execAttach_inv (hx : execAttach s = .next t) : t.Inv := by
  unfold execAttach at hx
  split at hx
  · cases hx; intro d hd; cases hd; exact attachedDevice_inv s.params s.attachIn.config
  · cases hx; intro d hd; cases hd

/-- DETACH leaves no device, or is refused (R601). -/
theorem execDetach_inv (h : s.Inv) (hx : execDetach s = .next t) : t.Inv := by
  unfold execDetach at hx
  split at hx
  · cases hx; exact h
  · cases hx; intro d hd; cases hd

/-- R383, R32, said once for every operation: the stores that the invariant speaks of are those of OUT_CRTC_DATA,
OUT_EXT_DATA, MEMW and ATTACH. -/
theorem exec_inv {i : Instr} (h : s.Inv) (hx : exec i s = .next t) : t.Inv := by
  cases i with
  | outCrtcData portAlias v =>
    refine onDevice_inv h (fun d d' out hd hdone => ?_) hx
    simp only [timingRecompute_eq, ite_self] at hdone
    cases hdone
    exact (h d hd).setCrtcData v
  | outExtData v => exact onDevice_inv h (fun d _ _ hd hdone => by cases hdone; exact (h d hd).setExtData v) hx
  | memw addr v => exact onDevice_inv h (fun d _ _ hd hdone => by cases hdone; exact (h d hd).writeVram addr v) hx
  | attach => exact execAttach_inv hx
  | detach => exact execDetach_inv h hx
  | tick => exact onDevice_inv h (fun d _ _ hd hdone => tickDevice_inv (h d hd) hdone) hx
  | outMode v =>
    exact onDevice_inv h (fun d _ _ hd hdone => by cases hdone; exact (h d hd).congr rfl rfl rfl rfl) hx
  | reserved7 | reserved8to15 => cases hx; exact h
  | outColsel v => exact onRegs_inv (f := fun c => { c with colorSelect := v }) h hx (fun _ => rfl) fun _ => rfl
  | outExtIndex v => exact onRegs_inv (f := fun c => { c with extIndex := wrapExt v.toNat }) h hx (fun _ => rfl) fun _ => rfl
  | outCrtcIndex | outNop3da | outNop3db | outNop3dc | outReserved | iowUnclaimed =>
    exact onRegs_inv h hx (fun _ => rfl) fun _ => rfl
  | inStatus => exact onRead_inv h.drawn hx
  | inCrtcIndex | inCrtcData | inFf3d0 | inFf3d6 | inFf3d8 | inFf3db | inFf3dc | iorUnclaimed | memr | memwUnclaimed
  | memrUnclaimed => exact onRead_inv h hx

/-- Taking an operation off the sequence touches neither the device nor the parameters (R107). -/
theorem State.Inv.accept (h : s.Inv) (op : HostOp) (rest : List HostOp) : (s.accept op rest).Inv := h

end

/-- A step that answers a next state had nothing pending, or applied the head operation (R107, log 1). -/
theorem step_next_cases {s t : State} (hx : step s = .next t) :
    (s.pending = [] ∧ t = s) ∨
    ∃ op rest, s.pending = op :: rest ∧ exec (decodeWord s.params.window op.word) (s.accept op rest) = .next t := by
  unfold step at hx
  split at hx
  · next hp =>
    cases hx
    exact .inl ⟨hp, rfl⟩
  · next op rest hp =>
    split at hx
    · exact .inr ⟨op, rest, hp, hx⟩
    · cases hx

/-- Settles O56: a step with nothing pending changes nothing, and any other that answers a next state applies the head
operation. -/
theorem everyStepKeepsTheInvariant : Obligations.EveryStepKeepsTheInvariant := by
  unfold Obligations.EveryStepKeepsTheInvariant
  intro s t h hx
  obtain ⟨-, rfl⟩ | ⟨op, rest, -, hexec⟩ := step_next_cases hx
  · exact h
  · exact exec_inv (h.accept op rest) hexec

end Sys2Proof.Machine

/-! PROOFS of the family of spec/44_cursor.md: where the hardware cursor overlay is the identity (O49), and what it does to
the pixels under the cursor (O50). -/

namespace Sys2Proof.Machine

/-! ### Where the overlay acts -/

/-- Blink suppression from the register byte and the blink counter (R402, R41, R57). -/
theorem cursorSuppressed_iff (p : Params) (d : Device) :
    cursorSuppressed p d = true ↔
      d.regs.ext[0x64].getLsbD p.curShowBit = false ∧ d.frame.blinkCounter.getLsbD 3 = false := by
  simp only [cursorSuppressed, cursorShow, blinkTop, Bool.and_eq_true, Bool.not_eq_true']

/-- The row offset from the raster position and the register byte (R401, R404, R40). -/
theorem cursorRow_eq (d : Device) :
    cursorRow d =
      d.raster.vCounter.toNat * rowHeight d.regs + d.raster.scanline.toNat + (16 : Int) - d.regs.ext[0x63].toNat := by
  simp only [cursorRow, displayedY, cursorY, Nat.cast_add, Nat.cast_mul]

/-- A suppressed cursor leaves the line alone (R402). -/
theorem cursorOverlay_of_suppressed {p : Params} {d : Device} (h : cursorSuppressed p d = true) (ln : Line) :
    cursorOverlay p d ln = ln := if_pos h

/-- So does a cursor whose 16 rows do not meet the line (R404). -/
theorem cursorOverlay_of_outside {d : Device} (h : cursorRow d < 0 ∨ 15 < cursorRow d) (p : Params) (ln : Line) :
    cursorOverlay p d ln = ln := by
  rw [cursorOverlay, if_pos h, ite_self]

/-- On row `r` of a cursor that shows, every pixel of the line is composited (R407). -/
theorem cursorOverlay_of_row {p : Params} {d : Device} {r : Fin 16} (hshow : ¬ cursorSuppressed p d = true)
    (hr : cursorRow d = r.val) (ln : Line) : cursorOverlay p d ln = mapPixels (cursorPixel p d.regs r.val) ln := by
  have hspan : ¬ (cursorRow d < 0 ∨ 15 < cursorRow d) := by omega
  rw [cursorOverlay, if_neg hshow, if_neg hspan, hr, Int.toNat_natCast]

/-! ### A pixel of the overlay -/

section
variable {p : Params} {c : Regs}

theorem andStep_of_clear (h : cursorAnd p c = false) (am : BitVec 16) (j : Nat) (px : Nib) :
    andStep p c am j px = px := by
  simp [andStep, h]

theorem xorStep_of_clear (h : cursorXor p c = false) (xm : BitVec 16) (j : Nat) (px : Nib) :
    xorStep p c xm j px = px := by
  simp [xorStep, h]

/-- With neither step applied, a pixel stays even under the cursor (R405, R406). -/
theorem cursorPixel_of_clear (hand : cursorAnd p c = false) (hxor : cursorXor p c = false) (r x : Nat) (px : Nib) :
    cursorPixel p c r x px = px := by
  simp only [cursorPixel, andStep_of_clear hand, xorStep_of_clear hxor, ite_self]

/-- The pixel that lies on half-column `hc` (R404). -/
theorem cursorPixel_of_halfColumn {x : Nat} {hc : Fin 32} (h : cursorHalfColumn c x = hc.val) (r : Nat) (px : Nib) :
    cursorPixel p c r x px =
      xorStep p c (xorRow c r) (hc.val / 2) (andStep p c (andRow c r) (hc.val / 2) px) := by
  have hon : 0 ≤ cursorHalfColumn c x ∧ cursorHalfColumn c x ≤ 31 := by omega
  rw [cursorPixel, if_pos hon, h, Int.toNat_natCast]

/-- A pixel on no half-column stays (R404). -/
theorem cursorPixel_of_offCursor {x : Nat} (h : ∀ hc : Fin 32, cursorHalfColumn c x ≠ hc.val) (r : Nat) (px : Nib) :
    cursorPixel p c r x px = px := by
  refine if_neg fun ⟨hlow, hhigh⟩ => h ⟨(cursorHalfColumn c x).toNat, by omega⟩ ?_
  exact (Int.toNat_of_nonneg hlow).symm

end

/-- The pixel of a half-column from the register bytes (R404, R38). -/
theorem cursorHalfColumn_eq_iff (c : Regs) (x hc : Nat) :
    cursorHalfColumn c x = hc ↔
      (x : Int) = (2 : Int) * (((c.ext[0x60].toNat * 256 + c.ext[0x61].toNat : Nat) : Int) - 16) + hc := by
  rw [cursorHalfColumn, cursorX_toNat, sub_eq_iff_eq_add']

/-- The AND colour from its byte (R45). -/
theorem andColor_eq (p : Params) (c : Regs) :
    andColor p c =
      if p.curColSwap = true then BitVec.ofNat 4 (c.ext[0x68].toNat % 16) else BitVec.ofNat 4 (c.ext[0x68].toNat / 16) := by
  rw [andColor, lowNibble_eq, highNibble_eq]

/-- The XOR colour is the other nibble (R45). -/
theorem xorColor_eq (p : Params) (c : Regs) :
    xorColor p c =
      if p.curColSwap = true then BitVec.ofNat 4 (c.ext[0x68].toNat / 16) else BitVec.ofNat 4 (c.ext[0x68].toNat % 16) := by
  rw [xorColor, lowNibble_eq, highNibble_eq]

/-- The AND step with its flag and its mask bit read from numbers (R405, R41). -/
theorem andStep_eq (p : Params) (c : Regs) (am : BitVec 16) (j : Nat) (px : Nib) :
    andStep p c am j px =
      if c.ext[0x64].getLsbD p.curAndBit = true ∧ am.toNat.testBit (15 - j) = true then px &&& andColor p c else px := by
  simp only [andStep, cursorAnd, Bool.and_eq_true, BitVec.testBit_toNat]

/-- The XOR step likewise (R406, R41). -/
theorem xorStep_eq (p : Params) (c : Regs) (xm : BitVec 16) (j : Nat) (px : Nib) :
    xorStep p c xm j px =
      if c.ext[0x64].getLsbD p.curXorBit = true ∧ xm.toNat.testBit (15 - j) = true then px ^^^ xorColor p c else px := by
  simp only [xorStep, cursorXor, Bool.and_eq_true, BitVec.testBit_toNat]

/-- With neither step applied, the overlay keeps every pixel of every line (R409). -/
theorem cursorOverlay_of_clear {p : Params} {d : Device} (hand : cursorAnd p d.regs = false)
    (hxor : cursorXor p d.regs = false) (ln : Line) : cursorOverlay p d ln = ln := by
  have hmap : mapPixels (cursorPixel p d.regs (cursorRow d).toNat) ln = ln := by
    ext x hx
    rw [mapPixels_getElem, cursorPixel_of_clear hand hxor]
  rw [cursorOverlay, hmap, ite_self, ite_self]

/-! ### The two statements -/

/-- Settles O49, by the four cases: above the span, below it, suppressed, and neither step applied. -/
theorem cursorOverlayIsIdentityOutsideItsSpan : Obligations.CursorOverlayIsIdentityOutsideItsSpan := by
  unfold Obligations.CursorOverlayIsIdentityOutsideItsSpan
  intro p d ln
  simp only [Nat.cast_ofNat, ← rowHeight_eq, ← cursorRow_eq, ← cursorSuppressed_iff]
  rintro (habove | hbelow | hsup | ⟨hand, hxor⟩)
  · exact cursorOverlay_of_outside (.inl habove) p ln
  · exact cursorOverlay_of_outside (.inr hbelow) p ln
  · exact cursorOverlay_of_suppressed hsup ln
  · exact cursorOverlay_of_clear hand hxor ln

/-- Settles O50: on the line the cursor's row is `r`, and a pixel's half-column decides whether the two steps apply. -/
theorem cursorOverlayAppliesAndThenXor : Obligations.CursorOverlayAppliesAndThenXor := by
  unfold Obligations.CursorOverlayAppliesAndThenXor
  intro p d ln r x
  simp only [ne_eq, ← rowHeight_eq, ← cursorHalfColumn_eq_iff, ← andRow_toNat d.regs r.val r.isLt,
    ← xorRow_toNat d.regs r.val r.isLt, ← andColor_eq, ← xorColor_eq, ← andStep_eq, ← xorStep_eq]
  intro hshow hline
  have hshown : ¬ cursorSuppressed p d = true := by
    rwa [cursorSuppressed_iff, not_and_or, Bool.not_eq_false, Bool.not_eq_false]
  have hrow : cursorRow d = r.val := by
    rw [cursorRow_eq]
    omega
  simp only [cursorOverlay_of_row hshown hrow, Fin.getElem_fin, mapPixels_getElem]
  exact ⟨fun hc hx => cursorPixel_of_halfColumn hx r.val _, fun hoff => cursorPixel_of_offCursor hoff r.val _⟩

end Sys2Proof.Machine

/-! PROOFS of the family of spec/45_output.md: the conversion of a line by display type (O51). -/

namespace Sys2Proof.Machine

/-! ### A line through a colour table -/

/-- Every pixel of the converted line is its index's entry of the table (R432, R433). -/
theorem colourLine_eq_colours (table : Nib → Rgb) (ln : Line) :
    ∃ px, colourLine table ln = .colours px ∧ ∀ x : Fin 640, px[x] = table ln[x] := by
  refine ⟨_, rfl, fun x => ?_⟩
  rw [Fin.getElem_fin, Fin.getElem_fin, tabulate_getElem _ _ _ x.isLt, Vector.getElem?_eq_getElem x.isLt,
    Option.getD_some]

/-! ### The standard palettes -/

theorem stdPal_rgb {cfg : HostConfig} (h : cfg.displayType = .rgb) (p : Params) (idx : Nib) :
    p.stdPalRgb[idx.toNat]? = some (stdPal p cfg idx) := by
  simp only [stdPal, h, Vector.getElem?_eq_getElem idx.isLt]

theorem stdPal_rgbNoBrown {cfg : HostConfig} (h : cfg.displayType = .rgbNoBrown) (p : Params) (idx : Nib) :
    p.stdPalNoBrown[idx.toNat]? = some (stdPal p cfg idx) := by
  simp only [stdPal, h, Vector.getElem?_eq_getElem idx.isLt]

/-- Apart from the two colour types, the table is the host's, which `monoContrast` selects (R433, R434). -/
theorem stdPal_mono {cfg : HostConfig} (hrgb : cfg.displayType ≠ .rgb) (hnb : cfg.displayType ≠ .rgbNoBrown)
    (p : Params) (idx : Nib) : stdPal p cfg idx = Config.monoPal cfg.displayType cfg.monoContrast idx := by
  cases h : cfg.displayType with
  | rgb => exact absurd h hrgb
  | rgbNoBrown => exact absurd h hnb
  | trueColor | green | amber | white | composite => simp only [stdPal, h]

/-! ### The path by display type -/

/-- True colour goes through the programmable palette (R432). -/
theorem hostLine_trueColor {d : Device} (h : d.config.displayType = .trueColor) (p : Params) (ln : Line) :
    hostLine p d ln = colourLine (fun i => d.palette[i.toNat]'i.isLt) ln := by
  simp only [hostLine, h]

/-- The composite encoder is fed the mode byte, the indices and the variant (R435). -/
theorem hostLine_composite {d : Device} (h : d.config.displayType = .composite) (p : Params) (ln : Line) :
    hostLine p d ln = .composite d.regs.mode ln d.config.compositeVariant := by
  simp only [hostLine, h]

/-- The five direct types go through the standard palette (R431, R433). -/
theorem hostLine_direct {d : Device} (htrue : d.config.displayType ≠ .trueColor)
    (hcomp : d.config.displayType ≠ .composite) (p : Params) (ln : Line) :
    hostLine p d ln = colourLine (stdPal p d.config) ln := by
  cases h : d.config.displayType with
  | trueColor => exact absurd h htrue
  | composite => exact absurd h hcomp
  | rgb | rgbNoBrown | green | amber | white => simp only [hostLine, h]

/-- Settles O51, by the three paths: two of them are a colour table, read at each pixel. -/
theorem hostLineFollowsTheDisplayType : Obligations.HostLineFollowsTheDisplayType := by
  unfold Obligations.HostLineFollowsTheDisplayType
  intro p d ln
  refine ⟨fun htrue => ?_, fun hcomp => hostLine_composite hcomp p ln, fun htrue hcomp => ?_⟩
  · obtain ⟨px, hline, hpx⟩ := colourLine_eq_colours (fun i => d.palette[i.toNat]'i.isLt) ln
    refine ⟨px, (hostLine_trueColor htrue p ln).trans hline, fun x => ?_⟩
    rw [hpx x]
    exact Vector.getElem?_eq_getElem ln[x].isLt
  · obtain ⟨px, hline, hpx⟩ := colourLine_eq_colours (stdPal p d.config) ln
    refine ⟨px, (hostLine_direct htrue hcomp p ln).trans hline, fun hrgb x => ?_, fun hnb x => ?_,
      fun hrgb hnb x => ?_⟩
    · rw [hpx x, stdPal_rgb hrgb]
    · rw [hpx x, stdPal_rgbNoBrown hnb]
    · rw [hpx x, stdPal_mono hrgb hnb]

end Sys2Proof.Machine

/-! PROOFS of the family of spec/60_exceptions.md: the refusals of R507 (O27), totality (O52), the step with nothing pending
and after a refusal (O2), the end of an instance (O26), and the refused TICK (O28). -/

namespace Sys2Proof.Machine

/-! ### What every operation can do -/

/-- Every operation but the lifecycle and reserved ones is an operation of the instance, in the state it is given or, for
IN_STATUS, in that state after its draw (log 13). -/
theorem exec_cases (i : Instr) (s : State) :
    (∃ s₀ f, (s₀ = s ∨ s₀ = s.drawn) ∧ exec i s = s₀.onDevice f) ∨
      i = .attach ∨ i = .detach ∨ i = .reserved7 ∨ ∃ low, i = .reserved8to15 low := by
  cases i with
  | attach => exact .inr (.inl rfl)
  | detach => exact .inr (.inr (.inl rfl))
  | reserved7 => exact .inr (.inr (.inr (.inl rfl)))
  | reserved8to15 low => exact .inr (.inr (.inr (.inr ⟨low, rfl⟩)))
  | inStatus => exact .inl ⟨s.drawn, _, .inr rfl, rfl⟩
  | _ => exact .inl ⟨s, _, .inl rfl, rfl⟩

/-! ### The lifecycle operations -/

/-- ATTACH without video memory (R502). -/
theorem exec_attach_allocFails {s : State} (h : s.attachIn.allocOk = false) :
    exec .attach s = .next { s with device := none, outcome := .attachFailed } :=
  if_neg (by simp [h])

/-- ATTACH with video memory (R600). -/
theorem exec_attach_allocOk {s : State} (h : s.attachIn.allocOk = true) :
    exec .attach s = .next { s with
      device := some (attachedDevice s.params s.attachIn.config), refused := false, outcome := .done } :=
  if_pos h

/-- DETACH of an instance (R601). -/
theorem exec_detach_some {s : State} {d : Device} (h : s.device = some d) :
    exec .detach s = .next { s with device := none, outcome := .done } := by
  simp only [exec, execDetach, h]

/-- DETACH with none (R507). -/
theorem exec_detach_none {s : State} (h : s.device = none) : exec .detach s = .next (s.refuse .noInstance) := by
  simp only [exec, execDetach, h]

/-- Settles O26, by the equations of the two operations. -/
theorem attachFailureAndDetachLeaveNoInstance : Obligations.AttachFailureAndDetachLeaveNoInstance := by
  unfold Obligations.AttachFailureAndDetachLeaveNoInstance
  exact ⟨fun _ halloc => exec_attach_allocFails halloc, fun _ _ hd => exec_detach_some hd⟩

/-! ### Refusals -/

/-- With no instance, an operation that is neither an ATTACH nor reserved is refused (R507): no value is drawn, so
IN_STATUS is no exception. -/
theorem exec_noInstance {i : Instr} {s : State} (h : s.device = none) (hattach : i ≠ .attach) (hres : i ≠ .reserved7)
    (hres' : ∀ low, i ≠ .reserved8to15 low) : exec i s = .next (s.refuse .noInstance) := by
  obtain ⟨s₀, f, hs₀, hexec⟩ | rfl | rfl | rfl | ⟨low, rfl⟩ := exec_cases i s
  · rw [State.drawn_none h, or_self] at hs₀
    rw [hexec, hs₀, onDevice_none h]
  · exact absurd rfl hattach
  · exact exec_detach_none h
  · exact absurd rfl hres
  · exact absurd rfl (hres' low)

/-- Settles O27: a reserved kind answers its refusal whatever the state, and the rest is `exec_noInstance`. -/
theorem reservedKindsAndMissingInstanceAreRefused : Obligations.ReservedKindsAndMissingInstanceAreRefused := by
  unfold Obligations.ReservedKindsAndMissingInstanceAreRefused
  exact fun s => ⟨rfl, fun _ => rfl, fun hd _ hattach hres hres' => exec_noInstance hd hattach hres hres'⟩

/-- The TICK that R506 refuses. -/
theorem execTick_unsupported {s : State} {d : Device} (h : s.device = some d) (hh : d.raster.half = .blank)
    (hon : d.raster.dispOn = true) (hunsup : isUnsupported s.params d = true) :
    exec .tick s = .next (s.refuse .unsupportedConfiguration) := by
  simp only [exec, execTick, onDevice_some h, tickDevice, hh, enterVisible, hon, hunsup, if_true, State.finish]

/-- Settles O28: the refusal sets the mark and the outcome only. -/
theorem unsupportedDisplayedTickIsRefused : Obligations.UnsupportedDisplayedTickIsRefused := by
  unfold Obligations.UnsupportedDisplayedTickIsRefused
  exact fun _ _ hd hh hon hunsup => execTick_unsupported hd hh hon hunsup

/-! ### Totality -/

/-- `o` is a next state that only appends to the events of `s` and keeps what the host gave: the parameters, the sequence
and the operands of ATTACH (R500, R501). -/
def AppendsEvents (s : State) (o : Host.Outcome State Fault Refusal) : Prop :=
  ∃ t out, o = .next t ∧ t.events = s.events ++ out ∧ t.params = s.params ∧ t.pending = s.pending ∧
    t.attachIn = s.attachIn

/-- A next state with the same events and host data appends nothing. -/
theorem appendsEvents_silent {s t : State} (hevents : t.events = s.events) (hparams : t.params = s.params)
    (hpending : t.pending = s.pending) (hattach : t.attachIn = s.attachIn) : AppendsEvents s (.next t) :=
  ⟨t, [], rfl, by rw [hevents, List.append_nil], hparams, hpending, hattach⟩

theorem refuse_appendsEvents (s : State) (reason : RefuseReason) : AppendsEvents s (.next (s.refuse reason)) :=
  appendsEvents_silent rfl rfl rfl rfl

/-- The draw of a free value leaves all of it alone. -/
theorem drawn_onDevice_appendsEvents (s : State) (f : Device → OpResult) : AppendsEvents s (s.drawn.onDevice f) := by
  simpa only [AppendsEvents, State.drawn_events, State.drawn_params, State.drawn_pending, State.drawn_attachIn] using
    onDevice_keeps s.drawn f

theorem exec_attach_appendsEvents (s : State) : AppendsEvents s (exec .attach s) := by
  cases halloc : s.attachIn.allocOk with
  | true => rw [exec_attach_allocOk halloc]; exact appendsEvents_silent rfl rfl rfl rfl
  | false => rw [exec_attach_allocFails halloc]; exact appendsEvents_silent rfl rfl rfl rfl

theorem exec_detach_appendsEvents (s : State) : AppendsEvents s (exec .detach s) := by
  cases hd : s.device with
  | none => rw [exec_detach_none hd]; exact refuse_appendsEvents s _
  | some d => rw [exec_detach_some hd]; exact appendsEvents_silent rfl rfl rfl rfl

/-- Settles O52: an operation of the instance, a lifecycle operation or a refusal. -/
theorem everyOperationAnswersANextState : Obligations.EveryOperationAnswersANextState := by
  unfold Obligations.EveryOperationAnswersANextState
  intro i s
  obtain ⟨s₀, f, rfl | rfl, hexec⟩ | rfl | rfl | rfl | ⟨low, rfl⟩ := exec_cases i s
  · rw [hexec]; exact onDevice_keeps s₀ f
  · rw [hexec]; exact drawn_onDevice_appendsEvents s f
  · exact exec_attach_appendsEvents s
  · exact exec_detach_appendsEvents s
  · exact refuse_appendsEvents s .reservedKind
  · exact refuse_appendsEvents s .reservedKind

/-! ### The step that runs no operation -/

/-- With nothing pending a step idles (R516, log 1). -/
theorem step_idle {s : State} (h : s.pending = []) : step s = .next s := by
  simp only [step, h]

/-- The other branch of `step_of_pending`: an operation that may not run ends the run (R506, R516, log 5). -/
theorem step_runEnded {s : State} {op : HostOp} {rest : List HostOp} (hp : s.pending = op :: rest)
    (hrun : ¬ s.mayRun (decodeWord s.params.window op.word) = true) : step s = .refused .runEnded := by
  simp only [step, hp, if_neg hrun]

/-- Settles O2: after a refusal only an ATTACH may run. -/
theorem stepIdlesWhenEmptyAndStopsAfterRefusal : Obligations.StepIdlesWhenEmptyAndStopsAfterRefusal := by
  unfold Obligations.StepIdlesWhenEmptyAndStopsAfterRefusal
  refine ⟨fun _ hp => step_idle hp, fun s op rest hp href hne => step_runEnded hp ?_⟩
  rw [mayRun_iff]
  exact not_or.mpr ⟨by simp [href], hne⟩

end Sys2Proof.Machine

/-! PROOFS of the family of spec/70_reset_and_hazards.md: the instance a successful ATTACH creates (O24), and the same with
the reference parameters (O25). -/

namespace Sys2Proof.Machine

/-! ### The extended registers ATTACH leaves -/

/-- ext[0x40..0x5F] hold the default palette bytes. -/
theorem attachedExt_defaultPal (p : Params) (j : Fin 32) : (attachedExt p)[0x40 + j.val]? = some p.defaultPal[j] := by
  have hin : 0x40 ≤ 0x40 + j.val ∧ 0x40 + j.val < 0x60 := by omega
  rw [attachedExt, tabulate_getElem_option _ _ _ (by omega), if_pos hin]
  simp

/-- ext[0x65] holds the default resolution code. -/
theorem attachedExt_defaultRes (p : Params) : (attachedExt p)[0x65] = p.defaultRes := by
  rw [attachedExt, tabulate_getElem, if_neg (by decide), if_pos rfl]

/-- Every other extended register is 0. -/
theorem attachedExt_zero (p : Params) {j : Fin 106} (hpal : j.val < 0x40 ∨ 0x60 ≤ j.val) (hres : j.val ≠ 0x65) :
    (attachedExt p)[j] = 0 := by
  have hout : ¬ (0x40 ≤ j.val ∧ j.val < 0x60) := by omega
  rw [Fin.getElem_fin, attachedExt, tabulate_getElem, if_neg hout, if_neg hres]

/-! ### The instance ATTACH creates -/

/-- Settles O24: the instance is `attachedDevice`, whose extended registers the lemmas above read and whose palette the
invariant ties to them. -/
theorem attachCreatesAZeroedInstanceWithDefaults : Obligations.AttachCreatesAZeroedInstanceWithDefaults := by
  unfold Obligations.AttachCreatesAZeroedInstanceWithDefaults
  intro s halloc
  have hinv := attachedDevice_inv s.params s.attachIn.config
  exact ⟨attachedDevice s.params s.attachIn.config, exec_attach_allocOk halloc,
    rfl, fun i => Vector.getElem_replicate i.isLt, rfl,
    attachedExt_defaultPal s.params, attachedExt_defaultRes s.params, fun _ => attachedExt_zero s.params,
    rfl, rfl, hinv.palette, Memory.read_nil, rfl, rfl, rfl⟩

/-! ### The reference parameters -/

/-- The reference parameters give the registers of the reset instance (R74). -/
theorem attachedRegs_reference : attachedRegs Params.reference = Regs.reset := by decide +kernel

/-- The palette they give is the table of R382. -/
theorem paletteFrom_reference : paletteFrom Params.reference Regs.reset = paletteReset :=
  vector_eq_of_entries fun k => (tabulate_getElem 16 _ k k.isLt).trans (reset_paletteConsistent k).symm

theorem attachedDevice_reference (cfg : HostConfig) :
    attachedDevice Params.reference cfg = { Device.reset with config := cfg } := by
  rw [attachedDevice, attachedRegs_reference, paletteFrom_reference]
  rfl

/-- Settles O25: the instance ATTACH creates is the reset instance. -/
theorem attachWithReferenceParametersGivesReset : Obligations.AttachWithReferenceParametersGivesReset := by
  unfold Obligations.AttachWithReferenceParametersGivesReset
  intro s hparams halloc
  rw [exec_attach_allocOk halloc, hparams, attachedDevice_reference]

end Sys2Proof.Machine

/-! PROOFS of the remaining family: a Graphics320 line (O43), a Graphics640 line (O44), the monochrome mapping of an
attr byte (O47), and the test-vector words (O8). -/

namespace Sys2Proof.Machine

/-! ### The pixels of a graphics line -/

/-- A pixel of a Graphics320 line: words are 16 pixels wide, and each logical pixel is two pixels (R337). -/
theorem renderPixel_graphics320 {d : Device} (h : variant d.regs = .graphics320) (p : Params) {x w q : Nat} (hq : q < 8)
    (hx : x = 16 * w + 2 * q ∨ x = 16 * w + 2 * q + 1) : renderPixel p d x = graphics320Pixel p d w q := by
  have hword : x / 16 = w := by omega
  have hpixel : x % 16 / 2 = q := by omega
  simp only [renderPixel, h, hword, hpixel]

/-- A pixel of a Graphics640 line: words are 16 pixels wide (R338). -/
theorem renderPixel_graphics640 {d : Device} (h : variant d.regs = .graphics640) (p : Params) {x w q : Nat} (hq : q < 16)
    (hx : x = 16 * w + q) : renderPixel p d x = graphics640Pixel p d w q := by
  have hword : x / 16 = w := by omega
  have hpixel : x % 16 = q := by omega
  simp only [renderPixel, h, hword, hpixel]

/-- The two bits of logical pixel `q` of a word, the leftmost pixel in the highest bits (R337). -/
theorem wordPair_toNat (dat : BitVec 16) (q : Fin 8) :
    (dat.extractLsb' (14 - 2 * q.val) 2).toNat = dat.toNat / 4 ^ (7 - q.val) % 4 := by
  have hexp : 14 - 2 * q.val = 2 * (7 - q.val) := by omega
  rw [BitVec.extractLsb'_toNat, Nat.shiftRight_eq_div_pow, hexp, Nat.pow_mul]

/-- A bit of a vector as a digit of its value. -/
theorem getLsbD_eq_true_iff_digit {n : Nat} (x : BitVec n) (i : Nat) : x.getLsbD i = true ↔ x.toNat / 2 ^ i % 2 = 1 := by
  rw [BitVec.getLsbD, Nat.testBit_eq_decide_div_mod_eq, decide_eq_true_iff]

/-- The intensity bit lies above the three bits of a colour of the set, so setting it adds 8 (R336). -/
theorem intensity_or (intense : Bool) (n : Fin 8) :
    (if intense = true then 8 else 0 : Nib) ||| BitVec.ofNat 4 n.val =
      BitVec.ofNat 4 (n.val + if intense = true then 8 else 0) := by
  revert intense n
  decide

/-- A colour family `x`, `y`, `z` of the set, by the two bits of the pixel (R336). -/
theorem familyColour_eq (intense : Bool) {k : BitVec 2} (hk : k ≠ 0) (x y z : Fin 8) :
    (let i : Nib := if intense = true then 8 else 0
      if k = 1 then i ||| BitVec.ofNat 4 x.val
      else if k = 2 then i ||| BitVec.ofNat 4 y.val
      else i ||| BitVec.ofNat 4 z.val) =
    BitVec.ofNat 4 ([0, x.val, y.val, z.val].getD k.toNat 0 + if intense = true then 8 else 0) := by
  obtain rfl | rfl | rfl : k = 1 ∨ k = 2 ∨ k = 3 := by revert k; decide
  · exact intensity_or intense x
  · exact intensity_or intense y
  · exact intensity_or intense z

/-- The Graphics320 colour set written out from the register bits (R336, R47, R48). -/
theorem graphics320Colour_eq (c : Regs) (k : BitVec 2) :
    graphics320Colour c k = BitVec.ofNat 4
      (let intensity : Nat := if c.colorSelect.getLsbD 4 = true then 8 else 0
      if k.toNat = 0 then c.colorSelect.toNat % 16
      else if c.mode.getLsbD 2 = true then [0, 3, 4, 7].getD k.toNat 0 + intensity
      else if c.colorSelect.getLsbD 5 = true then [0, 3, 5, 7].getD k.toNat 0 + intensity
      else [0, 2, 4, 6].getD k.toNat 0 + intensity) := by
  by_cases hk : k = 0
  · rw [hk]
    exact csColor_eq c
  · have hk' : k.toNat ≠ 0 := fun h => hk (BitVec.eq_of_toNat_eq h)
    simp only [graphics320Colour, if_neg hk, if_neg hk']
    by_cases hbw : modeBw c = true
    · rw [if_pos hbw, if_pos (show c.mode.getLsbD 2 = true from hbw)]
      exact familyColour_eq (csIntensity c) hk 3 4 7
    · rw [if_neg hbw, if_neg (show ¬ c.mode.getLsbD 2 = true from hbw)]
      by_cases hpal : csPalette c = true
      · rw [if_pos hpal, if_pos (show c.colorSelect.getLsbD 5 = true from hpal)]
        exact familyColour_eq (csIntensity c) hk 3 5 7
      · rw [if_neg hpal, if_neg (show ¬ c.colorSelect.getLsbD 5 = true from hpal)]
        exact familyColour_eq (csIntensity c) hk 2 4 6

/-- The word of a graphics line from the register bytes (R324, R335). -/
theorem graphicsWord_toNat_bytes (p : Params) (d : Device) (w : Nat) :
    (graphicsWord p d w).toNat =
      let interlaced : Bool := p.interlaced[d.regs.ext[0x65].toNat / 2 ^ p.resHLsb.val % 4]'(Nat.mod_lt _ (by decide))
      let es : Nat := if interlaced = true then (2 * d.raster.scanline.toNat + d.frame.oddEven.toNat) % 32
        else d.raster.scanline.toNat
      let a := (2 * (d.raster.memAddr.toNat + w)) % 0x2000 + 0x2000 * (es % 2)
      (d.vramAt a).toNat * 256 + (d.vramAt (a + 1)).toNat := by
  rw [graphicsWord_toNat, effectiveScanline_toNat_bytes]

/-- Settles O43: both pixels show the same logical pixel, whose two bits select from the colour set. -/
theorem graphics320LineShowsTwoBitPixels : Obligations.Graphics320LineShowsTwoBitPixels := by
  unfold Obligations.Graphics320LineShowsTwoBitPixels
  intro p d w q hv interlaced es a dat k intensity colour
  have hk : ((graphicsWord p d w).extractLsb' (14 - 2 * q.val) 2).toNat = k := by
    rw [wordPair_toNat, graphicsWord_toNat_bytes]
  have hcolour : graphics320Pixel p d w q = BitVec.ofNat 4 colour := by
    rw [graphics320Pixel, graphics320Colour_eq, hk]
  rw [renderLine_getElem_option p d (by omega), renderLine_getElem_option p d (by omega),
    renderPixel_graphics320 hv p q.isLt (.inl rfl), renderPixel_graphics320 hv p q.isLt (.inr rfl), hcolour]
  exact ⟨rfl, rfl⟩

/-- Settles O44: the pixel's place gives its word and bit. -/
theorem graphics640LineShowsOneBitPixels : Obligations.Graphics640LineShowsOneBitPixels := by
  unfold Obligations.Graphics640LineShowsOneBitPixels
  intro p d w q hv interlaced es a dat
  have hdat : (graphicsWord p d w).toNat = dat := graphicsWord_toNat_bytes p d w
  rw [renderLine_getElem_option p d (by omega), renderPixel_graphics640 hv p q.isLt rfl, graphics640Pixel, csColor_eq]
  simp only [getLsbD_eq_true_iff_digit, hdat]
  split <;> rfl

/-! ### The monochrome mapping -/

theorem attrMap_of_mono {p : Params} {d : Device} (h : d.regs.ext[0x66].getLsbD p.monoBit = true) (attr : Byte) (dc : Bool) :
    attrMap p d attr dc = monoMap (blinkActive d) attr := if_pos h

/-- The attr bytes with the same low seven bits are two, which differ in the blink bit (R376). -/
theorem attr_lowSeven_eq_iff (attr : Byte) (n : Fin 128) :
    attr.toNat % 128 = n.val ↔ attr = BitVec.ofNat 8 n.val ∨ attr = BitVec.ofNat 8 (n.val + 128) := by
  simp only [← BitVec.toNat_inj, BitVec.toNat_ofNat]
  omega

/-- `MonoMap` with the attr byte as a number: the blink state first, then the low seven bits, then bit 3 (R376-R378). -/
theorem monoMap_eq (blinkAct : Bool) (attr : Byte) :
    monoMap blinkAct attr =
      if blinkAct = true ∧ 0x80 ≤ attr.toNat then
        (if attr.toNat % 128 = 0x70 ∨ attr.toNat % 128 = 0x78 then (0xF, 0xF) else (0x0, 0x0))
      else if attr.toNat % 128 = 0x70 then (0x0, 0xF)
      else if attr.toNat % 128 = 0x78 then (0x7, 0xF)
      else if attr.toNat % 128 = 0x00 ∨ attr.toNat % 128 = 0x08 then (0x0, 0x0)
      else if attr.toNat / 8 % 2 = 1 then (0xF, 0x0) else (0x7, 0x0) := by
  have h70 : attr = 0x70 ∨ attr = 0xF0 ↔ attr.toNat % 128 = 0x70 := (attr_lowSeven_eq_iff attr 0x70).symm
  have h78 : attr = 0x78 ∨ attr = 0xF8 ↔ attr.toNat % 128 = 0x78 := (attr_lowSeven_eq_iff attr 0x78).symm
  have h00 : attr = 0x00 ∨ attr = 0x80 ↔ attr.toNat % 128 = 0x00 := (attr_lowSeven_eq_iff attr 0x00).symm
  have h08 : attr = 0x08 ∨ attr = 0x88 ↔ attr.toNat % 128 = 0x08 := (attr_lowSeven_eq_iff attr 0x08).symm
  have hdark : attr = 0x00 ∨ attr = 0x08 ∨ attr = 0x80 ∨ attr = 0x88 ↔ attr.toNat % 128 = 0x00 ∨ attr.toNat % 128 = 0x08 := by
    rw [← h00, ← h08, ← or_assoc, or_or_or_comm]
  have hblink : (blinkAct && attr.getLsbD 7) = true ↔ blinkAct = true ∧ 0x80 ≤ attr.toNat := by
    rw [Bool.and_eq_true, attr_getLsbD_seven_iff]
  have hbright : attr.getLsbD 3 = true ↔ attr.toNat / 8 % 2 = 1 := getLsbD_eq_true_iff_digit attr 3
  simp only [monoMap, monoTable, h70, h78, hdark, hblink, hbright]
  by_cases hactive : blinkAct = true ∧ 0x80 ≤ attr.toNat
  · simp only [if_pos hactive, ite_or, ite_self]
  · simp only [if_neg hactive]

/-- Settles O47: the mapping flag selects `MonoMap`, which the text cursor does not reach. -/
theorem monoMapFollowsTheTable : Obligations.MonoMapFollowsTheTable := by
  unfold Obligations.MonoMapFollowsTheTable
  intro p d attr dc hmono
  simp only [attrMap_of_mono hmono, ← blinkActive_iff]
  exact monoMap_eq (blinkActive d) attr

/-! ### The test-vector words -/

/-- Settles O8: the words are closed, and the decoder computes each row. -/
theorem vectorWordsDecodeAsListed : Obligations.VectorWordsDecodeAsListed := by
  unfold Obligations.VectorWordsDecodeAsListed
  decide

end Sys2Proof.Machine
